-- ==== Sys2Proof/Word.lean ====
section
/-! DEFINITION. The words of E7FR: bytes, segment patterns, times and heights (00 R9, R10).

In every docstring of this package "10 R33" means rule R33 of the file 10_… of spec/, and "log 3"
means notes/assumptions/3.md. -/

namespace Sys2Proof

/-- A received or transmitted byte, 8 bits (00 R10). -/
abbrev Byte := BitVec 8

/-- A segment pattern, bits 6 to 0 of a digit byte (30 R77). -/
abbrev Pattern := BitVec 7

/-- Milliseconds modulo `2 ^ 32`: `TIME_W = 32` (00 R8). -/
abbrev Time := BitVec 32

/-- A height in tenths of a display unit, 14 bits (00 R9). -/
abbrev Height := BitVec 14

/-- The write cursor of FR, 5 bits for `BUF_CAP = 32` (10 R22). -/
abbrev Cursor := BitVec 5

end Sys2Proof
end

