-- ==== Sys2Proof/Config.lean ====
section
/-! DEFINITION. What an implementation fixes: the fixed parameters, the configuration record `cfg`, the
segment table, and the free values that the spec leaves open (00 R8; 10 R31; 93 U9, U10). -/

namespace Sys2Proof

/-- A digit value (00 R13): `Num(0)` to `Num(9)`, `Minus`, `Blank`, `Invalid`. -/
inductive Digit
  | num (n : Fin 10)
  | minus
  | blank
  | invalid
  deriving DecidableEq, Repr, Inhabited

/-- A command variant, the type of `tx_sel` and of the three command fields of `cfg` (10 R30, R31). -/
inductive Variant
  | silent
  | wake
  deriving DecidableEq, Repr, Inhabited

/-- The 1-bit encoding of a variant: `0 = SILENT`, `1 = WAKE` (10 R31). -/
def Variant.code : Variant → BitVec 1
  | .silent => 0#1
  | .wake => 1#1

/-- When the activity timer is refreshed (10 R31; 42 R161). -/
inductive Policy
  | everyReading
  | onChange
  deriving DecidableEq, Repr, Inhabited

/-- The 1-bit encoding of a policy: `0 = EVERY_READING`, `1 = ON_CHANGE` (10 R31). -/
def Policy.code : Policy → BitVec 1
  | .everyReading => 0#1
  | .onChange => 1#1

/-- The configuration record, in the place of control registers (10 R31). No rule writes it. The four
timing fields are OPEN (00 R8); the other four have the spec's defaults. -/
structure Cfg where
  bootDelay : Time
  idleInterval : Time
  activeInterval : Time
  activityTimeout : Time
  bootCmd : Variant := .wake
  idleCmd : Variant := .silent
  activeCmd : Variant := .silent
  activityPolicy : Policy := .everyReading
  deriving DecidableEq, Repr

/-- `SEG_TABLE`: the eleven canonical segment patterns, a parameter of the hardware (00 R8; 40 R100). -/
structure SegTable where
  p0 : Pattern
  p1 : Pattern
  p2 : Pattern
  p3 : Pattern
  p4 : Pattern
  p5 : Pattern
  p6 : Pattern
  p7 : Pattern
  p8 : Pattern
  p9 : Pattern
  minus : Pattern
  deriving DecidableEq, Repr

/-- The eleven patterns in the order of `SEG_TABLE[0..10]` (40 R100). -/
def SegTable.toList (t : SegTable) : List Pattern :=
  [t.p0, t.p1, t.p2, t.p3, t.p4, t.p5, t.p6, t.p7, t.p8, t.p9, t.minus]

/-- The constraint on `SEG_TABLE`: eleven pairwise-distinct, non-zero values (00 R8). -/
abbrev SegTable.wf (t : SegTable) : Prop := t.toList.Nodup ∧ 0#7 ∉ t.toList

namespace Config

/-- `BUF_CAP`, the capacity of the FR buffer in bytes (00 R8; D5; log 16). -/
abbrev bufCap : Nat := 32

/-- What an entry of `buf` that no byte was written to reads as: 0x00. DESIGN CHOICE (log 7): the spec
says that such an entry "holds no value" and that no rule reads it (10 R21). -/
abbrev unwrittenByte : Byte := 0x00#8

/-- FREE VALUE (log 6): `cur_height` after a reset step is unspecified (10 R38; 93 U10). -/
opaque freeCurHeight : Nat → Height

/-- FREE VALUE (log 6): `last_pub` after a reset step is unspecified (10 R38; 93 U4). -/
opaque freeLastPub : Nat → Height

/-- FREE VALUE (log 6): `tx_sel` after a reset step is unspecified (10 R38; 93 U10). -/
opaque freeTxSel : Nat → Variant

/-- FREE VALUE (log 9): `tx_data` while `tx_busy = 0` is unspecified (10 R37; 93 U10). -/
opaque freeTxData : Nat → Byte

end Config

end Sys2Proof
end

