-- ==== Sys2Proof/Syntax.lean ====
section
/-! DEFINITION. The 29 encoding classes of spec/opcode_table.json, one constructor a row (30 R81; log 11),
and the contexts in which their bytes are decoded. -/

namespace Sys2Proof

/-- The three read ports of `SegRom` (40 R106): the digit bytes of a height broadcast (30 R76). -/
inductive Port
  | hundreds
  | tens
  | ones
  deriving DecidableEq, Repr, Inhabited

/-- The encoding classes. A byte class that the table leaves open carries its byte; a message class
carries its length byte and payload; a digit class carries its port and its decimal-point bit `d`. -/
inductive Instr
  /-- START_9B: 0x9B in scanning (41 R122). -/
  | start9b
  /-- START_98: 0x98 in scanning (41 R122). -/
  | start98
  /-- NOISE: any other byte in scanning (41 R127). -/
  | noise (b : Byte)
  /-- DATA: a byte inside a frame, not its last (41 R123). -/
  | data (b : Byte)
  /-- END_9D: 0x9D at frame index `L + 1` (41 R124). -/
  | end9d
  /-- BAD_END: any other byte at frame index `L + 1` (41 R124). -/
  | badEnd (b : Byte)
  /-- LEN_0: length byte 0 (30 R74). -/
  | len0
  /-- LEN_1: length byte 1 (30 R74). -/
  | len1
  /-- LEN_OK: a length byte from 2 to `BUF_CAP - 2` (30 R74). -/
  | lenOk (len : Byte)
  /-- LEN_OVERFLOW: a length byte of `BUF_CAP - 1` or more (41 R125). -/
  | lenOverflow (len : Byte)
  /-- MSG_HEARTBEAT: a Packet of type 0x11, any length (42 R152). -/
  | msgHeartbeat (len : Byte) (payload : List Byte)
  /-- MSG_HEIGHT: a Packet of type 0x12 and length 7, payload `h t o r3 r4` (42 R154). -/
  | msgHeight (h t o r3 r4 : Byte)
  /-- MSG_HEIGHT_BADLEN: a Packet of type 0x12 and another length (42 R153). -/
  | msgHeightBadlen (len : Byte) (payload : List Byte)
  /-- MSG_OTHER: a Packet of any other type (42 R153). -/
  | msgOther (type len : Byte) (payload : List Byte)
  /-- CMD_WAKE: the command of `tx_sel = 1` (44 R210). -/
  | cmdWake
  /-- CMD_SILENT: the command of `tx_sel = 0` (44 R210). -/
  | cmdSilent
  /-- DIGIT_0: `SEG_TABLE[0]` (40 R102), as the ten that follow it. -/
  | digit0 (port : Port) (d : Bool)
  | digit1 (port : Port) (d : Bool)
  | digit2 (port : Port) (d : Bool)
  | digit3 (port : Port) (d : Bool)
  | digit4 (port : Port) (d : Bool)
  | digit5 (port : Port) (d : Bool)
  | digit6 (port : Port) (d : Bool)
  | digit7 (port : Port) (d : Bool)
  | digit8 (port : Port) (d : Bool)
  | digit9 (port : Port) (d : Bool)
  /-- DIGIT_MINUS: `SEG_TABLE[10]` (40 R102). -/
  | digitMinus (port : Port) (d : Bool)
  /-- DIGIT_BLANK: the pattern 0 (40 R102). -/
  | digitBlank (port : Port) (d : Bool)
  /-- DIGIT_INVALID: any other pattern `p` (40 R102). -/
  | digitInvalid (port : Port) (d : Bool) (p : Pattern)
  deriving DecidableEq, Repr

/-- Where a received byte stands in a frame (the table's "format" column; 10 R23). -/
inductive FrameContext
  /-- `cursor = 0`. -/
  | scanning
  /-- Frame index 1. -/
  | length
  /-- Accumulating, not at the frame's last index. -/
  | data
  /-- Frame index `L + 1`. -/
  | atEnd
  deriving DecidableEq, Repr

/-- The context in which bytes are decoded. -/
inductive Context
  /-- A received byte (FR). -/
  | frame (c : FrameContext)
  /-- A delivered Packet of length byte `len`, from its type byte on (HI). -/
  | message (len : Byte)
  /-- The 8 bytes of a command (TX). -/
  | command
  /-- A digit byte at a port of `SegRom` (DG). -/
  | digit (port : Port)
  deriving DecidableEq, Repr

end Sys2Proof
end

