-- ==== Sys2Proof/Machine/Roms.lean ====
section
/-! DEFINITION. The constants of the hardware: the protocol's marker bytes, the two read-only memories
`SegRom` and `CmdRom` (10 R34), the default `SEG_TABLE`, and the configuration of the model's reset state. -/

namespace Sys2Proof

/-- The start byte 0x9B (30 R70). -/
abbrev startByte9b : Byte := 0x9B#8

/-- The start byte 0x98, equivalent to 0x9B for framing (30 R71). -/
abbrev startByte98 : Byte := 0x98#8

/-- The end byte 0x9D (30 R72). -/
abbrev endByte9d : Byte := 0x9D#8

/-- Message type heartbeat (30 R75). -/
abbrev typeHeartbeat : Byte := 0x11#8

/-- Message type height broadcast (30 R75). -/
abbrev typeHeight : Byte := 0x12#8

/-- The length byte of a height broadcast (30 R76). -/
abbrev heightLength : Byte := 7#8

/-- The default `SEG_TABLE` (40 R101). PRESUMED (log 3): the spec takes it from general knowledge. -/
def defaultSegTable : SegTable where
  p0 := 0x3F#7
  p1 := 0x06#7
  p2 := 0x5B#7
  p3 := 0x4F#7
  p4 := 0x66#7
  p5 := 0x6D#7
  p6 := 0x7D#7
  p7 := 0x07#7
  p8 := 0x7F#7
  p9 := 0x6F#7
  minus := 0x40#7

/-- `SegRom(p)`, the digit ROM built from `SEG_TABLE` (40 R100). The tests stand in the order of the
table; under the constraint on `SEG_TABLE` at most one of them holds. -/
def segRom (t : SegTable) (p : Pattern) : Digit :=
  if p = 0#7 then .blank
  else if p = t.p0 then .num 0
  else if p = t.p1 then .num 1
  else if p = t.p2 then .num 2
  else if p = t.p3 then .num 3
  else if p = t.p4 then .num 4
  else if p = t.p5 then .num 5
  else if p = t.p6 then .num 6
  else if p = t.p7 then .num 7
  else if p = t.p8 then .num 8
  else if p = t.p9 then .num 9
  else if p = t.minus then .minus
  else .invalid

/-- The 4-bit storage code of a ROM entry (40 R100); no rule reads it. -/
def digitCode : Digit → BitVec 4
  | .num n => BitVec.ofNat 4 n.val
  | .minus => 10#4
  | .blank => 11#4
  | .invalid => 15#4

/-- The eight bytes of a command, in the order in which they go out (30 R79; 44 R210). -/
def cmdBytes : Variant → List Byte
  | .wake => [0x9B#8, 0x06#8, 0x02#8, 0x20#8, 0x00#8, 0xAC#8, 0xB8#8, 0x9D#8]
  | .silent => [0x9B#8, 0x06#8, 0x02#8, 0x00#8, 0x00#8, 0x6C#8, 0xA1#8, 0x9D#8]

/-- `CmdRom(v, k)`, the command ROM (44 R210). Every index of 3 bits has a byte. -/
def cmdRom (v : Variant) (k : BitVec 3) : Byte := (cmdBytes v).getD k.toNat 0#8

/-- The configuration that `State.reset` carries: the test configuration TC, the one complete
configuration that the spec writes down (95 section 0). DESIGN CHOICE (log 2): the timing fields are OPEN. -/
def resetCfg : Cfg where
  bootDelay := 1000#32
  idleInterval := 5000#32
  activeInterval := 200#32
  activityTimeout := 2000#32

end Sys2Proof
end

