-- ==== Sys2Proof/WellFormed.lean ====
section
/-! DEFINITION. Which terms of `Instr` stand for bytes: the side conditions of the table's classes. -/

namespace Sys2Proof

/-- A length byte and a payload that a delivered Packet can have: `2 <= L <= BUF_CAP - 2` and a payload of
`L - 2` bytes (30 R70, R74). -/
def deliverable (len : Byte) (payload : List Byte) : Bool :=
  decide (2 ≤ len.toNat ∧ len.toNat + 2 ≤ Config.bufCap ∧ payload.length + 2 = len.toNat)

/-- The side condition of each class of the table, under the segment table `t`: a default row excludes
the bytes of the rows above it, a length class keeps its range, a message class its type and length. -/
def Instr.wf (t : SegTable) : Instr → Bool
  | .start9b => true
  | .start98 => true
  | .noise b => decide (b ≠ startByte9b ∧ b ≠ startByte98)
  | .data _ => true
  | .end9d => true
  | .badEnd b => decide (b ≠ endByte9d)
  | .len0 => true
  | .len1 => true
  | .lenOk len => decide (2 ≤ len.toNat ∧ len.toNat + 2 ≤ Config.bufCap)
  | .lenOverflow len => decide (Config.bufCap < len.toNat + 2)
  | .msgHeartbeat len payload => deliverable len payload
  | .msgHeight _ _ _ _ _ => true
  | .msgHeightBadlen len payload => decide (len ≠ heightLength) && deliverable len payload
  | .msgOther type len payload =>
      decide (type ≠ typeHeartbeat ∧ type ≠ typeHeight) && deliverable len payload
  | .cmdWake => true
  | .cmdSilent => true
  | .digit0 _ _ => true
  | .digit1 _ _ => true
  | .digit2 _ _ => true
  | .digit3 _ _ => true
  | .digit4 _ _ => true
  | .digit5 _ _ => true
  | .digit6 _ _ => true
  | .digit7 _ _ => true
  | .digit8 _ _ => true
  | .digit9 _ _ => true
  | .digitMinus _ _ => true
  | .digitBlank _ _ => true
  | .digitInvalid _ _ p => decide (segRom t p = .invalid)

end Sys2Proof
end

