-- ==== Sys2Proof/Decode.lean ====
section
/-! DEFINITION. Decoding, total on any bytes and rejecting by name; after it the encoder; last the table's
own numbering of words, `decodeTableWord`. -/

namespace Sys2Proof

/-- Bits 6 to 0 of a digit byte, the segment pattern (30 R77, R78). -/
def patternOf (b : Byte) : Pattern := b.setWidth 7

/-- `has_decimal(b)`: bit 7 of a digit byte (40 R103). -/
def hasDecimal (b : Byte) : Bool := b.getLsbD 7

/-- Why bytes are no instruction in a context. -/
inductive DecodeError
  /-- The context takes another number of bytes. -/
  | byteCount
  /-- No Packet has this length byte, or the payload does not have `L - 2` bytes (30 R74). -/
  | packetLength
  /-- Eight bytes that are neither command of `CmdRom` (44 R210). -/
  | unknownCommand
  deriving DecidableEq, Repr

/-- The class of a byte received in scanning (41 R122). -/
def decodeScanning (b : Byte) : Instr :=
  if b = startByte9b then .start9b else if b = startByte98 then .start98 else .noise b

/-- The class of a length byte (30 R74). -/
def decodeLength (b : Byte) : Instr :=
  if b = 0#8 then .len0
  else if b = 1#8 then .len1
  else if b.toNat + 2 ≤ Config.bufCap then .lenOk b
  else .lenOverflow b

/-- The class of the byte at frame index `L + 1` (41 R124). -/
def decodeEnd (b : Byte) : Instr := if b = endByte9d then .end9d else .badEnd b

/-- The class of a received byte where it stands. Every byte has one: no encoding is illegal (30 R80). -/
def decodeFrameByte : FrameContext → Byte → Instr
  | .scanning, b => decodeScanning b
  | .length, b => decodeLength b
  | .data, b => .data b
  | .atEnd, b => decodeEnd b

/-- DISPATCH on the type and length of a Packet (42 R151). A Packet of length 7 has five payload bytes
(30 R73), so the last branch of the height case is for no Packet. -/
def decodeMessage (len type : Byte) (payload : List Byte) : Instr :=
  if type = typeHeartbeat then .msgHeartbeat len payload
  else if type = typeHeight then
    if len = heightLength then
      match payload with
      | [h, t, o, r3, r4] => .msgHeight h t o r3 r4
      | _ => .msgHeightBadlen len payload
    else .msgHeightBadlen len payload
  else .msgOther type len payload

/-- The row of a digit byte at a port: the row of its ROM entry (40 R102). -/
def decodeDigit (t : SegTable) (port : Port) (b : Byte) : Instr :=
  match segRom t (patternOf b) with
  | .num 0 => .digit0 port (hasDecimal b)
  | .num 1 => .digit1 port (hasDecimal b)
  | .num 2 => .digit2 port (hasDecimal b)
  | .num 3 => .digit3 port (hasDecimal b)
  | .num 4 => .digit4 port (hasDecimal b)
  | .num 5 => .digit5 port (hasDecimal b)
  | .num 6 => .digit6 port (hasDecimal b)
  | .num 7 => .digit7 port (hasDecimal b)
  | .num 8 => .digit8 port (hasDecimal b)
  | .num 9 => .digit9 port (hasDecimal b)
  | .minus => .digitMinus port (hasDecimal b)
  | .blank => .digitBlank port (hasDecimal b)
  | .invalid => .digitInvalid port (hasDecimal b) (patternOf b)

/-- The instruction of a command variant (30 R79). -/
def commandInstr : Variant → Instr
  | .wake => .cmdWake
  | .silent => .cmdSilent

/-- Decoding of the bytes that stand in a context. -/
def decode (t : SegTable) : Context → List Byte → Except DecodeError Instr
  | .frame c, [b] => .ok (decodeFrameByte c b)
  | .frame _, _ => .error .byteCount
  | .message len, type :: payload =>
      if deliverable len payload then .ok (decodeMessage len type payload) else .error .packetLength
  | .message _, [] => .error .byteCount
  | .command, bytes =>
      if bytes = cmdBytes .wake then .ok .cmdWake
      else if bytes = cmdBytes .silent then .ok .cmdSilent
      else .error .unknownCommand
  | .digit port, [b] => .ok (decodeDigit t port b)
  | .digit _, _ => .error .byteCount

/-- A digit byte from its decimal-point bit and its pattern, `(d, p)` with `d` in bit 7 (30 R77). -/
def digitByte (d : Bool) (p : Pattern) : Byte := (BitVec.ofBool d ++ p : BitVec 8)

/-- The context in which an instruction's bytes stand. -/
def contextOf : Instr → Context
  | .start9b => .frame .scanning
  | .start98 => .frame .scanning
  | .noise _ => .frame .scanning
  | .data _ => .frame .data
  | .end9d => .frame .atEnd
  | .badEnd _ => .frame .atEnd
  | .len0 => .frame .length
  | .len1 => .frame .length
  | .lenOk _ => .frame .length
  | .lenOverflow _ => .frame .length
  | .msgHeartbeat len _ => .message len
  | .msgHeight _ _ _ _ _ => .message heightLength
  | .msgHeightBadlen len _ => .message len
  | .msgOther _ len _ => .message len
  | .cmdWake => .command
  | .cmdSilent => .command
  | .digit0 port _ => .digit port
  | .digit1 port _ => .digit port
  | .digit2 port _ => .digit port
  | .digit3 port _ => .digit port
  | .digit4 port _ => .digit port
  | .digit5 port _ => .digit port
  | .digit6 port _ => .digit port
  | .digit7 port _ => .digit port
  | .digit8 port _ => .digit port
  | .digit9 port _ => .digit port
  | .digitMinus port _ => .digit port
  | .digitBlank port _ => .digit port
  | .digitInvalid port _ _ => .digit port

/-- The bytes of an instruction, in the order in which they arrive or go out. -/
def encode (t : SegTable) : Instr → List Byte
  | .start9b => [startByte9b]
  | .start98 => [startByte98]
  | .noise b => [b]
  | .data b => [b]
  | .end9d => [endByte9d]
  | .badEnd b => [b]
  | .len0 => [0#8]
  | .len1 => [1#8]
  | .lenOk len => [len]
  | .lenOverflow len => [len]
  | .msgHeartbeat _ payload => typeHeartbeat :: payload
  | .msgHeight h t o r3 r4 => [typeHeight, h, t, o, r3, r4]
  | .msgHeightBadlen _ payload => typeHeight :: payload
  | .msgOther type _ payload => type :: payload
  | .cmdWake => cmdBytes .wake
  | .cmdSilent => cmdBytes .silent
  | .digit0 _ d => [digitByte d t.p0]
  | .digit1 _ d => [digitByte d t.p1]
  | .digit2 _ d => [digitByte d t.p2]
  | .digit3 _ d => [digitByte d t.p3]
  | .digit4 _ d => [digitByte d t.p4]
  | .digit5 _ d => [digitByte d t.p5]
  | .digit6 _ d => [digitByte d t.p6]
  | .digit7 _ d => [digitByte d t.p7]
  | .digit8 _ d => [digitByte d t.p8]
  | .digit9 _ d => [digitByte d t.p9]
  | .digitMinus _ d => [digitByte d t.minus]
  | .digitBlank _ d => [digitByte d 0#7]
  | .digitInvalid _ d p => [digitByte d p]

/-- What a decoding answers, as an option. -/
def toOption : Except DecodeError Instr → Option Instr
  | .ok i => some i
  | .error _ => none

/-- The context in which a lone byte of the table is read (log 12): the byte classes of the table
overlap, since each holds in its own place of a frame. The rows that fix all eight bits come first, in
the table's order; then the digit rows (of the default table, at the tens port); then scanning. -/
def tableContext (b : Byte) : Context :=
  if b = startByte9b ∨ b = startByte98 then .frame .scanning
  else if b = endByte9d then .frame .atEnd
  else if b = 0#8 ∨ b = 1#8 then .frame .length
  else if b = typeHeartbeat ∨ b = typeHeight then .message heightLength
  else if segRom defaultSegTable (patternOf b) = .invalid then .frame .scanning
  else .digit .tens

/-- The bytes of a lone table byte in its context: the operand bytes of a message, which the table gives
no bits, are zeros. -/
def tableBytes (b : Byte) : List Byte :=
  match tableContext b with
  | .message _ => [b, 0#8, 0#8, 0#8, 0#8, 0#8]
  | _ => [b]

/-- Byte `k` of a table word, byte 0 in its lowest bits. -/
def tableByte (w k : Nat) : Byte := BitVec.ofNat 8 (w >>> (8 * k))

/-- The instruction that the decoder reads from a table word (log 12). A byte row has 8 bits. A command
row has 64 bits: byte 0 of the command is read at the low end (the first byte is the first word) and,
where that gives no command, at the high end (as the table writes its `match` value). -/
def decodeTableWord (nbits w : Nat) : Option Instr :=
  if nbits = 8 then
    toOption (decode defaultSegTable (tableContext (tableByte w 0)) (tableBytes (tableByte w 0)))
  else if nbits = 64 then
    let bytes := (List.range 8).map (tableByte w)
    match decode defaultSegTable .command bytes with
    | .ok i => some i
    | .error _ => toOption (decode defaultSegTable .command bytes.reverse)
  else none

end Sys2Proof
end

