-- ==== Sys2Proof/Machine/State.lean ====
section
/-! DEFINITION. The state of E7FR: the registers of its four units, the configuration, the inputs of the
coming steps and the outputs of the last one (10 R20 to R38). Plain data. -/

namespace Sys2Proof.Machine

/-- The FR buffer as a list of (address, byte) pairs (20 R50, R55). -/
abbrev Memory := List Host.Cell

/-- The canonical form of a buffer: addresses strictly rising and below `BUF_CAP`, and no entry equal to
what an unlisted address reads as (log 7). -/
abbrev Memory.wf (m : Memory) : Prop :=
  m.Pairwise (fun c d => c.1 < d.1) ∧ ∀ c ∈ m, c.1 < Config.bufCap ∧ c.2 ≠ Config.unwrittenByte

/-- The record that FR produces for a valid frame (30 R73). -/
structure Packet where
  start : Byte
  length : Byte
  type : Byte
  payload : List Byte
  endByte : Byte
  deriving DecidableEq, Repr

/-- `fr_evt` (10 R36). -/
inductive FrEvt
  | none
  | packet
  | badEnd
  | overflow
  | badLength
  deriving DecidableEq, Repr

/-- `hi_evt` (10 R36). -/
inductive HiEvt
  | none
  | heartbeat
  | other
  | allBlank
  | invalidDigit
  | allZero
  | minus
  | nonnumeric
  | reading
  deriving DecidableEq, Repr

/-- `ps_evt` (10 R36). -/
inductive PsEvt
  | none
  | bootToIdle
  | idlePoll
  | idleToActive
  | activePoll
  | activeToIdle
  deriving DecidableEq, Repr

/-- `ps_state`, typed as the three-constructor enumeration that 10 R28 asks for. -/
inductive PsState
  | bootWait
  | idle
  | active
  deriving DecidableEq, Repr

/-- The registers that FR owns (10 R20 to R22). -/
structure FrRegs where
  buf : Memory
  cursor : Cursor
  deriving DecidableEq, Repr

/-- The registers that HI owns (10 R26, R27). -/
structure HiRegs where
  curHeightValid : Bool
  curHeight : Height
  lastPubValid : Bool
  lastPub : Height
  deriving DecidableEq, Repr

/-- The registers that PS owns (10 R28, R29). -/
structure PsRegs where
  psState : PsState
  bootTime : Time
  lastPollTime : Time
  lastActivityTime : Time
  deriving DecidableEq, Repr

/-- The registers that TX owns (10 R30). -/
structure TxRegs where
  txBusy : Bool
  txSel : Variant
  txIdx : BitVec 3
  deriving DecidableEq, Repr

/-- The inputs of one clock step (10 R32). -/
structure Input where
  rst : Bool
  rxValid : Bool
  rxData : Byte
  nowMs : Time
  txReady : Bool
  deriving DecidableEq, Repr

/-- The event record of a step (10 R36). `pub` is `pub_valid` with `pub_value_x10`, `txReq` a request with
its variant; `pkt` holds a Packet only when `fr_evt = PACKET` (log 10). -/
structure Out where
  frEvt : FrEvt
  pkt : Option Packet
  hiEvt : HiEvt
  activity : Bool
  pub : Option Height
  psEvt : PsEvt
  txReq : Option Variant
  deriving DecidableEq, Repr

/-- The event record of a step in which nothing happened: every field NONE or 0 (10 R36; 70 R260). -/
def Out.quiet : Out where
  frEvt := .none
  pkt := Option.none
  hiEvt := .none
  activity := false
  pub := Option.none
  psEvt := .none
  txReq := Option.none

/-- What a read port of `SegRom` shows: the digit and the decimal-point flag (40 R102, R103, R106). -/
structure DgOut where
  digit : Digit
  decimal : Bool
  deriving DecidableEq, Repr

/-- The reading of a step, in tenths, with its flag `changed` (42 R157, R160). -/
structure Reading where
  value : Height
  changed : Bool
  deriving DecidableEq, Repr

/-- Same-step values that units hand on and no register stores (10 R33; 41 R132), and the byte that TX
transfers in the step (44 R211). The model keeps them in the state (log 10, log 15). -/
structure Wires where
  dgHundreds : DgOut
  dgTens : DgOut
  dgOnes : DgOut
  reading : Option Reading
  txSent : Option Byte
  deriving DecidableEq, Repr

/-- The state of E7FR. `fr`, `hi`, `ps` and `tx` are the registers of its units (10 R20); `cfg` and
`segTable` are parameters that no step writes (10 R31, R34); `inputs` are the inputs of the coming
clock steps (log 1); `out` and `wires` are the outputs of the last step; `tick` numbers the free values
(log 8). -/
structure State where
  fr : FrRegs
  hi : HiRegs
  ps : PsRegs
  tx : TxRegs
  cfg : Cfg
  segTable : SegTable
  inputs : List Input
  out : Out
  wires : Wires
  tick : Nat
  deriving DecidableEq, Repr

/-- The reasons a step can stop with a fault. No step of E7FR does: "All error conditions are locally
recoverable; none are fatal" (30 R80). -/
inductive Fault
  /-- Raised by END_9D when it is executed away from the end position of a frame and the Packet would
  need a byte beyond the buffer: an address outside a space, which "cannot arise" (20 R50). Safe (log 14). -/
  | bufferAddress
  deriving DecidableEq, Repr

/-- The reasons an instruction is refused. -/
inductive Refusal
  /-- An instruction that the model gives no meaning. No arm of `exec` raises it. Safe. -/
  | notModelled (mnemonic : String)
  deriving DecidableEq, Repr

/-- The outcome of a step or of an instruction. -/
abbrev Outcome := Host.Outcome State Fault Refusal

/-- A port of `SegRom` before its first read. DESIGN CHOICE (log 15); nothing reads it. -/
def DgOut.idle : DgOut where
  digit := .blank
  decimal := false

/-- The machine right after reset (10 R38; 70 R260): the state that a reset step at `now_ms = 0` leaves.
DESIGN CHOICE: `now_ms = 0` (log 4); the registers that the spec leaves unspecified (logs 5 and 7); the
configuration (log 2); the segment table (log 3, PRESUMED). -/
def State.reset : State where
  fr := { buf := [], cursor := 0#5 }
  hi := { curHeightValid := false, curHeight := 0#14, lastPubValid := false, lastPub := 0#14 }
  ps := { psState := .bootWait, bootTime := 0#32, lastPollTime := 0#32, lastActivityTime := 0#32 }
  tx := { txBusy := false, txSel := .silent, txIdx := 0#3 }
  cfg := resetCfg
  segTable := defaultSegTable
  inputs := []
  out := Out.quiet
  wires :=
    { dgHundreds := DgOut.idle, dgTens := DgOut.idle, dgOnes := DgOut.idle,
      reading := none, txSent := none }
  tick := 0

end Sys2Proof.Machine
end

