-- ==== Sys2Proof/Machine/Ops.lean ====
section
/-! DEFINITION. The named operations over the state: the updates of its parts, the FR buffer, the shared
error operation `frameError`, and what the units write. -/

namespace Sys2Proof.Machine

/-- Run `f` on the next state of an outcome; a fault or a refusal stays. -/
def andThen (o : Outcome) (f : State → Outcome) : Outcome :=
  match o with
  | .next s => f s
  | .fault r => .fault r
  | .refused r => .refused r

/-! ### Updates of one part -/

/-- Replace the registers of FR. -/
def State.withFr (s : State) (r : FrRegs) : State := { s with fr := r }
/-- Replace the registers of HI. -/
def State.withHi (s : State) (r : HiRegs) : State := { s with hi := r }
/-- Replace the registers of PS. -/
def State.withPs (s : State) (r : PsRegs) : State := { s with ps := r }
/-- Replace the registers of TX. -/
def State.withTx (s : State) (r : TxRegs) : State := { s with tx := r }
/-- Replace the event record. -/
def State.withOut (s : State) (o : Out) : State := { s with out := o }
/-- Replace the same-step values. -/
def State.withWires (s : State) (w : Wires) : State := { s with wires := w }

/-! ### The FR buffer (20 R50) -/

/-- Byte `a` of the buffer; an unlisted address reads as the unwritten byte (log 7). -/
def readByte : Memory → Nat → Byte
  | [], _ => Config.unwrittenByte
  | (k, b) :: m, a => if k = a then b else readByte m a

/-- Put byte `b` at address `a` in front of a buffer whose addresses are above `a`: an entry equal to what
an unlisted address reads as is left out. -/
def consByte (a : Nat) (b : Byte) (m : Memory) : Memory :=
  if b = Config.unwrittenByte then m else (a, b) :: m

/-- Write byte `b` at address `a`, keeping the canonical form. -/
def writeByte : Memory → Nat → Byte → Memory
  | [], a, b => consByte a b []
  | (k, c) :: m, a, b =>
    if a < k then consByte a b ((k, c) :: m)
    else if a = k then consByte a b m
    else (k, c) :: writeByte m a b

/-! ### FR -/

/-- Set `fr_evt`. -/
def setFrEvt (e : FrEvt) (s : State) : State := s.withOut { s.out with frEvt := e }

/-- Set `cursor`. -/
def setCursor (c : Cursor) (s : State) : State := s.withFr { s.fr with cursor := c }

/-- `buf[a] <- b`. -/
def setBuf (a : Nat) (b : Byte) (s : State) : State :=
  s.withFr { s.fr with buf := writeByte s.fr.buf a b }

/-- `raise FrameError(code)`: the one error operation of E7FR. It sets `cursor <- 0`, leaves `buf` stale
and sets `fr_evt <- code`, and nothing else (60 R231). -/
def frameError (code : FrEvt) (s : State) : State := setFrEvt code (setCursor 0#5 s)

/-- `buf[0] <- b ; cursor <- 1 ; fr_evt <- NONE`: a start byte in scanning (41 R122). -/
def startFrame (b : Byte) (s : State) : State := setFrEvt .none (setCursor 1#5 (setBuf 0 b s))

/-- `buf[cursor] <- b` (41 R123). -/
def appendByte (b : Byte) (s : State) : State := setBuf s.fr.cursor.toNat b s

/-- `c' = cursor + 1`, the number of bytes after an append, 1 to `BUF_CAP` (41 R123). -/
def countAfter (c : Cursor) : Nat := c.toNat + 1

/-- An append that does not complete the frame (41 R123, R125): the byte is stored; the `BUF_CAP`-th byte
raises OVERFLOW, any other advances the cursor. -/
def accumulate (b : Byte) (s : State) : State :=
  if countAfter s.fr.cursor = Config.bufCap then frameError .overflow (appendByte b s)
  else setFrEvt .none (setCursor (BitVec.ofNat 5 (countAfter s.fr.cursor)) (appendByte b s))

/-- `fr_evt <- PACKET ; pkt <- P ; cursor <- 0` (41 R124). -/
def deliver (p : Packet) (s : State) : State :=
  (setCursor 0#5 s).withOut { s.out with frEvt := .packet, pkt := some p }

/-! ### HI -/

/-- Set `hi_evt`. -/
def setHiEvt (e : HiEvt) (s : State) : State := s.withOut { s.out with hiEvt := e }

/-! ### DG -/

/-- Show a digit and its decimal-point flag at a read port of `SegRom` (40 R106). -/
def setPort (port : Port) (g : DgOut) (s : State) : State :=
  match port with
  | .hundreds => s.withWires { s.wires with dgHundreds := g }
  | .tens => s.withWires { s.wires with dgTens := g }
  | .ones => s.withWires { s.wires with dgOnes := g }

/-! ### TX -/

/-- ACCEPT: `tx_busy <- 1 ; tx_sel <- v ; tx_idx <- 0` (44 R213). -/
def accept (v : Variant) (s : State) : State :=
  s.withTx { txBusy := true, txSel := v, txIdx := 0#3 }

/-- The TX registers after ADVANCE in a step that transfers a byte (44 R212). -/
def advancedTx (r : TxRegs) : TxRegs :=
  if r.txIdx = 7#3 then { r with txBusy := false, txIdx := 0#3 }
  else { r with txIdx := r.txIdx + 1#3 }

/-- SEND and ADVANCE (44 R211, R212): with `tx_busy = 1` and `tx_ready = 1` the byte
`CmdRom(tx_sel, tx_idx)` is transferred and the index moves on; otherwise nothing happens. -/
def advance (txReady : Bool) (s : State) : State :=
  if s.tx.txBusy && txReady then
    (s.withTx (advancedTx s.tx)).withWires
      { s.wires with txSent := some (cmdRom s.tx.txSel s.tx.txIdx) }
  else s

/-! ### The start of a step, and reset -/

/-- The start of a clock step: the outputs of the step before are gone, and the step is counted (log 10). -/
def beginStep (s : State) : State :=
  { s with
    out := Out.quiet
    wires := { s.wires with reading := none, txSent := none }
    tick := s.tick + 1 }

/-- A reset step (70 R260): every register goes to its value of 10 R38; `buf` is left as it is; the
registers whose value the spec leaves unspecified get free values (log 6); no event, no transfer. -/
def resetStep (now : Time) (s : State) : State :=
  { beginStep s with
    fr := { s.fr with cursor := 0#5 }
    hi :=
      { curHeightValid := false, curHeight := Config.freeCurHeight s.tick,
        lastPubValid := false, lastPub := Config.freeLastPub s.tick }
    ps := { psState := .bootWait, bootTime := now, lastPollTime := now, lastActivityTime := now }
    tx := { txBusy := false, txSel := Config.freeTxSel s.tick, txIdx := 0#3 } }

end Sys2Proof.Machine
end

