-- ==== Sys2Proof/Machine/Operands.lean ====
section
/-! DEFINITION. Operand assembly: the length, the Packet, the reading (30 R73, R74, R78; 42 R157). -/

namespace Sys2Proof.Machine

/-- The length byte `L = buf[1]` of the frame in the buffer (30 R78). -/
def lengthByte (m : Memory) : Byte := readByte m 1

/-- `zext_9(L) + 2`, in 9 bits, which cannot wrap (30 R74, R78). -/
def expectedLength (len : Byte) : BitVec 9 := len.setWidth 9 + 2#9

/-- The payload `buf[3 .. L]` of a frame of length byte `L`, `L - 2` bytes (30 R73; 90 C1). -/
def payloadOf (m : Memory) (len : Byte) : List Byte :=
  (List.range (len.toNat - 2)).map fun k => readByte m (3 + k)

/-- The Packet of the complete frame in the buffer (30 R73). -/
def packetOf (m : Memory) : Packet where
  start := readByte m 0
  length := lengthByte m
  type := readByte m 2
  payload := payloadOf m (lengthByte m)
  endByte := readByte m ((lengthByte m).toNat + 1)

/-- `val(Num(n)) = n`, and `isNum` with it: the value of a numeric digit (00 R13). -/
def digitValue : Digit → Option (Fin 10)
  | .num n => some n
  | .minus => none
  | .blank => none
  | .invalid => none

/-- `raw = 100*hundreds + 10*tens + ones`, exact (42 R157). -/
def rawHeight (h t o : Fin 10) : Nat := 100 * h.val + 10 * t.val + o.val

/-- The reading in tenths: `raw` with the decimal point of the tens byte set, else `10 * raw`. At most 9990,
which 14 bits hold (42 R157). -/
def readingValue (raw : Nat) (decimal : Bool) : Height :=
  BitVec.ofNat 14 (if decimal then raw else 10 * raw)

end Sys2Proof.Machine
end

