-- ==== Sys2Proof/Machine/Flags.lean ====
section
/-! DEFINITION. The flags and tests of E7FR: `changed`, the publish condition, the activity signal, and
the four timing predicates (42 R160 to R162; 43 R181). -/

namespace Sys2Proof.Machine

/-- `changed = (cur_height_valid = 0) or (v != cur_height)` (42 R160). -/
def changedFlag (r : HiRegs) (v : Height) : Bool := !r.curHeightValid || decide (v ≠ r.curHeight)

/-- The activity signal of a reading under a policy (42 R161). -/
def activityFlag (p : Policy) (changed : Bool) : Bool :=
  match p with
  | .everyReading => true
  | .onChange => changed

/-- The publish condition of a reading: `v > 0 and (last_pub_valid = 0 or v != last_pub)` (42 R162). -/
def publishFlag (r : HiRegs) (v : Height) : Bool :=
  decide (0#14 < v) && (!r.lastPubValid || decide (v ≠ r.lastPub))

/-- `elapsed(now, ref) = (now - ref) mod 2^TIME_W` (00 R11). -/
def elapsed (now ref : Time) : Time := now - ref

/-- `boot_due = elapsed(n, boot_time) > cfg.boot_delay` (43 R181). -/
def bootDue (c : Cfg) (r : PsRegs) (n : Time) : Bool := decide (c.bootDelay < elapsed n r.bootTime)

/-- `idle_due = elapsed(n, last_poll_time) >= cfg.idle_interval` (43 R181). -/
def idleDue (c : Cfg) (r : PsRegs) (n : Time) : Bool :=
  decide (c.idleInterval ≤ elapsed n r.lastPollTime)

/-- `active_due = elapsed(n, last_poll_time) >= cfg.active_interval` (43 R181). -/
def activeDue (c : Cfg) (r : PsRegs) (n : Time) : Bool :=
  decide (c.activeInterval ≤ elapsed n r.lastPollTime)

/-- `timed_out = elapsed(n, last_activity_time') > cfg.activity_timeout` (43 R181); the registers are those
after this step's activity update (43 R186). -/
def timedOut (c : Cfg) (r : PsRegs) (n : Time) : Bool :=
  decide (c.activityTimeout < elapsed n r.lastActivityTime)

end Sys2Proof.Machine
end

