-- ==== Sys2Proof/Machine/Commands.lean ====
section
/-! DEFINITION. TX: the meanings of the two commands (44 R210, R213). A command starts when TX accepts it;
its bytes then go out one per handshake, in the steps that follow (`advance`, 44 R211, R212). -/

namespace Sys2Proof.Machine

/-- CMD_WAKE: TX takes the command of `tx_sel = 1` (44 R213). -/
def execCmdWake (s : State) : Outcome := .next (accept .wake s)

/-- CMD_SILENT: TX takes the command of `tx_sel = 0` (44 R213). -/
def execCmdSilent (s : State) : Outcome := .next (accept .silent s)

end Sys2Proof.Machine
end

