-- ==== Sys2Proof/Machine/Framer.lean ====
section
/-! DEFINITION. FR: the meanings of the frame-byte and length-byte classes (41 R122 to R125). Each acts as
its rule says where its byte stands in its place of a frame, which is where the step executes it (log 19). -/

namespace Sys2Proof.Machine

/-- START_9B (41 R122). -/
def execStart9b (s : State) : Outcome := .next (startFrame startByte9b s)

/-- START_98 (41 R122). -/
def execStart98 (s : State) : Outcome := .next (startFrame startByte98 s)

/-- NOISE: dropped, no event, no state change (41 R122, R127). -/
def execNoise (_b : Byte) (s : State) : Outcome := .next (setFrEvt .none s)

/-- DATA: stored; the `BUF_CAP`-th byte of a frame overflows (41 R123, R125). -/
def execData (b : Byte) (s : State) : Outcome := .next (accumulate b s)

/-- The outcome of a frame whose end byte is right: BAD_LENGTH for `L < 2`, else a Packet (41 R124). -/
def completeFrame (s : State) : Outcome :=
  if (lengthByte s.fr.buf).toNat < 2 then .next (frameError .badLength s)
  else if (expectedLength (lengthByte s.fr.buf)).toNat ≤ Config.bufCap then
    .next (deliver (packetOf s.fr.buf) s)
  else .fault .bufferAddress

/-- END_9D: the end byte is stored and the frame completes (41 R123, R124). The fault is for a frame longer
than the buffer, whose end position no cursor reaches (20 R50; log 14). -/
def execEnd9d (s : State) : Outcome := completeFrame (appendByte endByte9d s)

/-- BAD_END: the byte is stored and the frame is discarded (41 R123, R124). -/
def execBadEnd (b : Byte) (s : State) : Outcome := .next (frameError .badEnd (appendByte b s))

/-- LEN_0: the expected length is 2, so the length byte is itself checked as the end byte and, being 0, is a
bad end (41 R124). -/
def execLen0 (s : State) : Outcome := .next (frameError .badEnd (appendByte 0#8 s))

/-- LEN_1: stored; a frame of 3 bytes (30 R74). -/
def execLen1 (s : State) : Outcome := .next (accumulate 1#8 s)

/-- LEN_OK: stored; a frame of `L + 2` bytes (30 R74). -/
def execLenOk (len : Byte) (s : State) : Outcome := .next (accumulate len s)

/-- LEN_OVERFLOW: stored; the frame overflows at its `BUF_CAP`-th byte (41 R125). -/
def execLenOverflow (len : Byte) (s : State) : Outcome := .next (accumulate len s)

end Sys2Proof.Machine
end

