-- ==== Sys2Proof/Machine/Digits.lean ====
section
/-! DEFINITION. DG: the meanings of the digit-byte classes (40 R102, R103). A digit byte at a read port of
`SegRom` shows its Digit and its decimal-point flag there; no register is written. -/

namespace Sys2Proof.Machine

/-- DIGIT_0: `Num(0)` (40 R102). -/
def execDigit0 (port : Port) (d : Bool) (s : State) : Outcome :=
  .next (setPort port (DgOut.mk (.num 0) d) s)

/-- DIGIT_1: `Num(1)` (40 R102). -/
def execDigit1 (port : Port) (d : Bool) (s : State) : Outcome :=
  .next (setPort port (DgOut.mk (.num 1) d) s)

/-- DIGIT_2: `Num(2)` (40 R102). -/
def execDigit2 (port : Port) (d : Bool) (s : State) : Outcome :=
  .next (setPort port (DgOut.mk (.num 2) d) s)

/-- DIGIT_3: `Num(3)` (40 R102). -/
def execDigit3 (port : Port) (d : Bool) (s : State) : Outcome :=
  .next (setPort port (DgOut.mk (.num 3) d) s)

/-- DIGIT_4: `Num(4)` (40 R102). -/
def execDigit4 (port : Port) (d : Bool) (s : State) : Outcome :=
  .next (setPort port (DgOut.mk (.num 4) d) s)

/-- DIGIT_5: `Num(5)` (40 R102). -/
def execDigit5 (port : Port) (d : Bool) (s : State) : Outcome :=
  .next (setPort port (DgOut.mk (.num 5) d) s)

/-- DIGIT_6: `Num(6)` (40 R102). -/
def execDigit6 (port : Port) (d : Bool) (s : State) : Outcome :=
  .next (setPort port (DgOut.mk (.num 6) d) s)

/-- DIGIT_7: `Num(7)` (40 R102). -/
def execDigit7 (port : Port) (d : Bool) (s : State) : Outcome :=
  .next (setPort port (DgOut.mk (.num 7) d) s)

/-- DIGIT_8: `Num(8)` (40 R102). -/
def execDigit8 (port : Port) (d : Bool) (s : State) : Outcome :=
  .next (setPort port (DgOut.mk (.num 8) d) s)

/-- DIGIT_9: `Num(9)` (40 R102). -/
def execDigit9 (port : Port) (d : Bool) (s : State) : Outcome :=
  .next (setPort port (DgOut.mk (.num 9) d) s)

/-- DIGIT_MINUS: `Minus` (40 R102). -/
def execDigitMinus (port : Port) (d : Bool) (s : State) : Outcome :=
  .next (setPort port (DgOut.mk .minus d) s)

/-- DIGIT_BLANK: `Blank` (40 R102). -/
def execDigitBlank (port : Port) (d : Bool) (s : State) : Outcome :=
  .next (setPort port (DgOut.mk .blank d) s)

/-- DIGIT_INVALID: `Invalid`, whatever the pattern (40 R102). -/
def execDigitInvalid (port : Port) (d : Bool) (_p : Pattern) (s : State) : Outcome :=
  .next (setPort port (DgOut.mk .invalid d) s)

/-- DG decodes a digit byte at a port: the row of its `SegRom` entry acts (40 R102, R103, R106). -/
def readDigit (port : Port) (b : Byte) (s : State) : Outcome :=
  match segRom s.segTable (patternOf b) with
  | .num 0 => execDigit0 port (hasDecimal b) s
  | .num 1 => execDigit1 port (hasDecimal b) s
  | .num 2 => execDigit2 port (hasDecimal b) s
  | .num 3 => execDigit3 port (hasDecimal b) s
  | .num 4 => execDigit4 port (hasDecimal b) s
  | .num 5 => execDigit5 port (hasDecimal b) s
  | .num 6 => execDigit6 port (hasDecimal b) s
  | .num 7 => execDigit7 port (hasDecimal b) s
  | .num 8 => execDigit8 port (hasDecimal b) s
  | .num 9 => execDigit9 port (hasDecimal b) s
  | .minus => execDigitMinus port (hasDecimal b) s
  | .blank => execDigitBlank port (hasDecimal b) s
  | .invalid => execDigitInvalid port (hasDecimal b) (patternOf b) s

end Sys2Proof.Machine
end

