-- ==== Sys2Proof/Machine/Messages.lean ====
section
/-! DEFINITION. HI: the meanings of the message classes (42 R151 to R163). -/

namespace Sys2Proof.Machine

/-- MSG_HEARTBEAT: `hi_evt = HEARTBEAT` and nothing else (42 R152). -/
def execMsgHeartbeat (_len : Byte) (_payload : List Byte) (s : State) : Outcome :=
  .next (setHiEvt .heartbeat s)

/-- MSG_HEIGHT_BADLEN: `hi_evt = OTHER` and nothing else (42 R153). -/
def execMsgHeightBadlen (_len : Byte) (_payload : List Byte) (s : State) : Outcome :=
  .next (setHiEvt .other s)

/-- MSG_OTHER: `hi_evt = OTHER` and nothing else (42 R153). -/
def execMsgOther (_type _len : Byte) (_payload : List Byte) (s : State) : Outcome :=
  .next (setHiEvt .other s)

/-- What the eight steps of a height broadcast come to: an ignore outcome, or a reading in tenths. -/
inductive HeightResult
  | ignored (e : HiEvt)
  | reading (v : Height)
  deriving DecidableEq, Repr

/-- Step 3: a Blank hundreds digit counts as 0 (42 R155). -/
def blankHundreds (d : Digit) : Digit := if d = .blank then .num 0 else d

/-- Steps 4 to 7 of a height broadcast, on the hundreds digit that step 3 leaves (42 R154 to R157). -/
def judgeDigits (dh dt dO : Digit) (decimal : Bool) : HeightResult :=
  if dh = .invalid ∨ dt = .invalid ∨ dO = .invalid then .ignored .invalidDigit
  else if dh = .num 0 ∧ dt = .num 0 ∧ dO = .num 0 then .ignored .allZero
  else if dt = .minus then .ignored .minus
  else
    match digitValue dh, digitValue dt, digitValue dO with
    | some h, some t, some o => .reading (readingValue (rawHeight h t o) decimal)
    | _, _, _ => .ignored .nonnumeric

/-- Steps 2 to 7 of a height broadcast on its three decoded digits and the decimal-point flag of the tens
byte; the first step that ignores the packet decides (42 R154, R159). -/
def judgeHeight (dh dt dO : Digit) (decimal : Bool) : HeightResult :=
  if dh = .blank ∧ dt = .blank ∧ dO = .blank then .ignored .allBlank
  else judgeDigits (blankHundreds dh) dt dO decimal

/-- The HI registers after a reading is committed and, where the publish condition holds, published
(42 R161, R162). -/
def committedHi (r : HiRegs) (v : Height) : HiRegs :=
  if publishFlag r v then
    { curHeightValid := true, curHeight := v, lastPubValid := true, lastPub := v }
  else { r with curHeightValid := true, curHeight := v }

/-- The event record of a reading: READING, the activity signal, the publish strobe (42 R160 to R162). -/
def readingOut (o : Out) (policy : Policy) (r : HiRegs) (v : Height) : Out :=
  { o with
    hiEvt := .reading
    activity := activityFlag policy (changedFlag r v)
    pub := if publishFlag r v then some v else none }

/-- Step 8: commit, activity signal and publish, all computed from the registers at the start of the step
(42 R160 to R162). The reading with its flag is handed to PS (10 R33). -/
def commitReading (v : Height) (s : State) : State :=
  { s with
    hi := committedHi s.hi v
    out := readingOut s.out s.cfg.activityPolicy s.hi v
    wires := { s.wires with reading := some (Reading.mk v (changedFlag s.hi v)) } }

/-- The effect of a height broadcast's result: a reading commits, an ignored packet sets only its code
(42 R161 to R163). -/
def applyHeight (r : HeightResult) (s : State) : State :=
  match r with
  | .ignored e => setHiEvt e s
  | .reading v => commitReading v s

/-- HI on the three digits that DG shows at its ports (42 R154). -/
def interpretHeight (s : State) : State :=
  applyHeight
    (judgeHeight s.wires.dgHundreds.digit s.wires.dgTens.digit s.wires.dgOnes.digit
      s.wires.dgTens.decimal) s

/-- MSG_HEIGHT: DG decodes the three digit bytes (step 1), then HI takes steps 2 to 8. The reserved bytes are
not read (42 R154). -/
def execMsgHeight (h t o _r3 _r4 : Byte) (s : State) : Outcome :=
  andThen (readDigit .hundreds h s) fun s1 =>
  andThen (readDigit .tens t s1) fun s2 =>
  andThen (readDigit .ones o s2) fun s3 =>
  .next (interpretHeight s3)

end Sys2Proof.Machine
end

