-- ==== Sys2Proof/Machine/Dispatch.lean ====
section
/-! DEFINITION. One arm per encoding class: the meaning that its rule gives it. -/

namespace Sys2Proof.Machine

def exec (i : Instr) (s : State) : Host.Outcome State Fault Refusal :=
  match i with
  | .start9b => Sys2Proof.Machine.execStart9b s
  | .start98 => Sys2Proof.Machine.execStart98 s
  | .noise b => Sys2Proof.Machine.execNoise b s
  | .data b => Sys2Proof.Machine.execData b s
  | .end9d => Sys2Proof.Machine.execEnd9d s
  | .badEnd b => Sys2Proof.Machine.execBadEnd b s
  | .len0 => Sys2Proof.Machine.execLen0 s
  | .len1 => Sys2Proof.Machine.execLen1 s
  | .lenOk len => Sys2Proof.Machine.execLenOk len s
  | .lenOverflow len => Sys2Proof.Machine.execLenOverflow len s
  | .msgHeartbeat len payload => Sys2Proof.Machine.execMsgHeartbeat len payload s
  | .msgHeight h t o r3 r4 => Sys2Proof.Machine.execMsgHeight h t o r3 r4 s
  | .msgHeightBadlen len payload => Sys2Proof.Machine.execMsgHeightBadlen len payload s
  | .msgOther type len payload => Sys2Proof.Machine.execMsgOther type len payload s
  | .cmdWake => Sys2Proof.Machine.execCmdWake s
  | .cmdSilent => Sys2Proof.Machine.execCmdSilent s
  | .digit0 port d => Sys2Proof.Machine.execDigit0 port d s
  | .digit1 port d => Sys2Proof.Machine.execDigit1 port d s
  | .digit2 port d => Sys2Proof.Machine.execDigit2 port d s
  | .digit3 port d => Sys2Proof.Machine.execDigit3 port d s
  | .digit4 port d => Sys2Proof.Machine.execDigit4 port d s
  | .digit5 port d => Sys2Proof.Machine.execDigit5 port d s
  | .digit6 port d => Sys2Proof.Machine.execDigit6 port d s
  | .digit7 port d => Sys2Proof.Machine.execDigit7 port d s
  | .digit8 port d => Sys2Proof.Machine.execDigit8 port d s
  | .digit9 port d => Sys2Proof.Machine.execDigit9 port d s
  | .digitMinus port d => Sys2Proof.Machine.execDigitMinus port d s
  | .digitBlank port d => Sys2Proof.Machine.execDigitBlank port d s
  | .digitInvalid port d p => Sys2Proof.Machine.execDigitInvalid port d p s

end Sys2Proof.Machine
end

