-- ==== Sys2Proof/Machine/Scheduler.lean ====
section
/-! DEFINITION. PS: the poll scheduler (43 R180 to R191). It has no row of its own in the opcode table; the
step runs it in every clock step without reset. -/

namespace Sys2Proof.Machine

/-- ACTIVITY-UPDATE (43 R186). -/
def activityUpdate (n : Time) (s : State) : State :=
  if s.out.activity then s.withPs { s.ps with lastActivityTime := n } else s

/-- Move PS to a state, with no command and `last_poll_time` kept (43 R188, R189). -/
def moveTo (p : PsState) (e : PsEvt) (s : State) : State :=
  (s.withPs { s.ps with psState := p }).withOut { s.out with psEvt := e }

/-- Request a command: `last_poll_time <- now_ms ; tx_req <- (1, v)`, in state `p` (43 R187 to R190). -/
def poll (p : PsState) (n : Time) (v : Variant) (e : PsEvt) (s : State) : State :=
  (s.withPs { s.ps with psState := p, lastPollTime := n }).withOut
    { s.out with psEvt := e, txReq := some v }

/-- Whether this step has a reading that changed (43 R192). -/
def readingChanged (s : State) : Bool :=
  match s.wires.reading with
  | some r => r.changed
  | none => false

/-- BOOTWAIT-STEP (43 R187). -/
def bootWaitStep (n : Time) (s : State) : State :=
  if bootDue s.cfg s.ps n && !s.tx.txBusy then poll .idle n s.cfg.bootCmd .bootToIdle s else s

/-- IDLE-STEP: the transition comes before the poll (43 R188). -/
def idleStep (n : Time) (s : State) : State :=
  if readingChanged s then moveTo .active .idleToActive s
  else if idleDue s.cfg s.ps n && !s.tx.txBusy then poll .idle n s.cfg.idleCmd .idlePoll s
  else s

/-- ACTIVE-STEP: the timeout comes before the poll, and reads `last_activity_time'` (43 R189). -/
def activeStep (n : Time) (s : State) : State :=
  if timedOut s.cfg s.ps n then moveTo .idle .activeToIdle s
  else if activeDue s.cfg s.ps n && !s.tx.txBusy then poll .active n s.cfg.activeCmd .activePoll s
  else s

/-- The transition and poll of a step, by the state at its start (43 R187 to R189). -/
def transition (n : Time) (s : State) : State :=
  match s.ps.psState with
  | .bootWait => bootWaitStep n s
  | .idle => idleStep n s
  | .active => activeStep n s

/-- The whole PS step (43 R191). -/
def psStep (n : Time) (s : State) : State := transition n (activityUpdate n s)

end Sys2Proof.Machine
end

