-- ==== Sys2Proof/Machine/Clock.lean ====
section
/-! DEFINITION. One clock step: FR, then HI, then PS, then TX (10 R33), each unit executing the instruction
that it decodes; a reset step in the place of all of them (70 R263); and the level outputs (10 R37). -/

namespace Sys2Proof.Machine

/-- Where the byte of this step stands in the frame that FR holds (10 R23; 41 R122 to R124). -/
def frameContext (r : FrRegs) : FrameContext :=
  if r.cursor = 0#5 then .scanning
  else if r.cursor = 1#5 then .length
  else if countAfter r.cursor = (expectedLength (lengthByte r.buf)).toNat then .atEnd
  else .data

/-- FR (41 R120): the received byte, if there is one, is decoded where it stands and executed. -/
def frPhase (inp : Input) (s : State) : Outcome :=
  if inp.rxValid then exec (decodeFrameByte (frameContext s.fr) inp.rxData) s else .next s

/-- The message class of a Packet (42 R151). -/
def messageOf (p : Packet) : Instr := decodeMessage p.length p.type p.payload

/-- HI (42 R150): the Packet that FR delivered in this step, if there is one, is decoded and executed. -/
def hiPhase (s : State) : Outcome :=
  match s.out.pkt with
  | some p => exec (messageOf p) s
  | none => .next s

/-- PS (43 R191). -/
def psPhase (inp : Input) (s : State) : State := psStep inp.nowMs s

/-- TX (44 R214): SEND and ADVANCE on `tx_ready`, then this step's request, if there is one, is executed. -/
def txPhase (inp : Input) (s : State) : Outcome :=
  match s.out.txReq with
  | some v => exec (commandInstr v) (advance inp.txReady s)
  | none => .next (advance inp.txReady s)

/-- The units after FR, in their order (10 R33). -/
def afterFr (inp : Input) (s : State) : Outcome :=
  andThen (hiPhase s) fun s2 => txPhase inp (psPhase inp s2)

/-- One clock step on its inputs: a reset step when `rst = 1` (70 R260, R263), else the units in order. -/
def clockStep (inp : Input) (s : State) : Outcome :=
  if inp.rst then .next (resetStep inp.nowMs s)
  else andThen (frPhase inp (beginStep s)) (afterFr inp)

/-- The level outputs (10 R37). -/
structure Levels where
  txValid : Bool
  txData : Byte
  pollState : PsState
  heightValid : Bool
  heightX10 : Height
  deriving DecidableEq, Repr

/-- The level outputs of a step from the state at its start and its `rst`. `tx_data` is a free value while
`tx_busy = 0` (log 9). -/
def levels (rst : Bool) (s : State) : Levels where
  txValid := s.tx.txBusy && !rst
  txData := if s.tx.txBusy then cmdRom s.tx.txSel s.tx.txIdx else Config.freeTxData s.tick
  pollState := s.ps.psState
  heightValid := s.hi.curHeightValid
  heightX10 := s.hi.curHeight

/-- `fr_evt` as its 3-bit code (10 R36). -/
def frEvtCode : FrEvt → BitVec 3
  | .none => 0#3
  | .packet => 1#3
  | .badEnd => 2#3
  | .overflow => 3#3
  | .badLength => 4#3

/-- `hi_evt` as its 4-bit code (10 R36). -/
def hiEvtCode : HiEvt → BitVec 4
  | .none => 0#4
  | .heartbeat => 1#4
  | .other => 2#4
  | .allBlank => 3#4
  | .invalidDigit => 4#4
  | .allZero => 5#4
  | .minus => 6#4
  | .nonnumeric => 7#4
  | .reading => 8#4

/-- `ps_evt` as its 3-bit code (10 R36). -/
def psEvtCode : PsEvt → BitVec 3
  | .none => 0#3
  | .bootToIdle => 1#3
  | .idlePoll => 2#3
  | .idleToActive => 3#3
  | .activePoll => 4#3
  | .activeToIdle => 5#3

/-- `ps_state` as its 2-bit code (10 R28). -/
def psStateCode : PsState → BitVec 2
  | .bootWait => 0#2
  | .idle => 1#2
  | .active => 2#2

end Sys2Proof.Machine
end

