-- ==== Sys2Proof/Machine/Fetch.lean ====
section
/-! DEFINITION. Placing an instruction where the next step runs it (log 13): the state of FR or PS in which
its class is decoded, and one entry at the front of the input list. -/

namespace Sys2Proof.Machine

/-- A clock step's inputs with one received byte, no reset and no transmit handshake. -/
def rxInput (now : Time) (b : Byte) : Input where
  rst := false
  rxValid := true
  rxData := b
  nowMs := now
  txReady := false

/-- A clock step's inputs with no received byte. -/
def idleInput (now : Time) : Input where
  rst := false
  rxValid := false
  rxData := 0#8
  nowMs := now
  txReady := false

/-- Write a list of bytes into the buffer from an address on. -/
def writeBytes (m : Memory) (a : Nat) : List Byte → Memory
  | [] => m
  | b :: bs => writeBytes (writeByte m a b) (a + 1) bs

/-- Put `frame` in the buffer, with the cursor behind it, and `b` on the receive port of the next step. -/
def placeFrame (frame : List Byte) (b : Byte) (s : State) : State :=
  { s with
    fr := { buf := writeBytes s.fr.buf 0 frame, cursor := BitVec.ofNat 5 frame.length }
    inputs := rxInput s.ps.bootTime b :: s.inputs }

/-- Make a poll of variant `v` fall due in the next step: PS in Idle with `cfg.idle_cmd = v`, TX free, and
`now_ms` at exactly the idle interval after the last poll (43 R188). -/
def placeCommand (v : Variant) (s : State) : State :=
  { s with
    ps := { s.ps with psState := .idle }
    tx := { s.tx with txBusy := false }
    cfg := { s.cfg with idleCmd := v }
    inputs := idleInput (s.ps.lastPollTime + s.cfg.idleInterval) :: s.inputs }

/-- The payload of a height broadcast with one digit byte at a port and Blank at the others. -/
def digitPayload (port : Port) (b : Byte) : List Byte :=
  match port with
  | .hundreds => [b, 0#8, 0#8, 0#8, 0#8]
  | .tens => [0#8, b, 0#8, 0#8, 0#8]
  | .ones => [0#8, 0#8, b, 0#8, 0#8]

/-- Place the bytes of a context so that the next step decodes them there: a received byte is presented at
its place of a frame, a message and a digit byte in a frame that lacks only its end byte. -/
def placeBytes (c : Context) (bytes : List Byte) (s : State) : State :=
  match c with
  | .frame .scanning => placeFrame [] (bytes.headD 0#8) s
  | .frame .length => placeFrame [startByte9b] (bytes.headD 0#8) s
  | .frame .data => placeFrame [startByte9b, 2#8] (bytes.headD 0#8) s
  | .frame .atEnd => placeFrame [startByte9b, 2#8, 0#8] (bytes.headD 0#8) s
  | .message len => placeFrame (startByte9b :: len :: bytes) endByte9d s
  | .command => placeCommand (if bytes = cmdBytes .wake then .wake else .silent) s
  | .digit port =>
      placeFrame (startByte9b :: heightLength :: typeHeight :: digitPayload port (bytes.headD 0#8))
        endByte9d s

/-- Place an instruction; its bytes are those of the default segment table, which the table's digit rows
are written in. -/
def placeInstr (i : Instr) (s : State) : State := placeBytes (contextOf i) (encode defaultSegTable i) s

end Sys2Proof.Machine
end

