-- ==== Sys2Proof/Machine/Step.lean ====
section
/-! DEFINITION. The step, and the placing of a table word where the next step runs it. -/

namespace Sys2Proof.Machine

/-- One step: one clock edge on the oldest of the inputs that the environment has presented. With none left
the clock stands still and the state is kept (20 R63; 60 R244; log 1). -/
def step (s : State) : Host.Outcome State Fault Refusal :=
  match s.inputs with
  | [] => .next s
  | inp :: rest => clockStep inp { s with inputs := rest }

/-- `s` with the instruction of a table word placed where the next step runs it; `s` itself for a word that
is none (log 13). -/
def State.withFetchWord (s : State) (nbits w : Nat) : State :=
  match decodeTableWord nbits w with
  | some i => placeInstr i s
  | none => s

end Sys2Proof.Machine
end

