-- ==== Sys2Proof/Safety.lean ====
section
/-! DEFINITION. The words in which the claims speak: what a unit leaves alone, the invariant of 10 R39, and
what a run receives and sends. -/

namespace Sys2Proof.Safety

open Sys2Proof.Machine

/-! ### Frames -/

/-- `t` is `s` apart from the registers of FR and FR's two fields of the event record. -/
def SameOutsideFr (s t : State) : Prop :=
  t.hi = s.hi ∧ t.ps = s.ps ∧ t.tx = s.tx ∧ t.cfg = s.cfg ∧ t.segTable = s.segTable ∧
  t.inputs = s.inputs ∧ t.wires = s.wires ∧ t.tick = s.tick ∧
  t.out.hiEvt = s.out.hiEvt ∧ t.out.activity = s.out.activity ∧ t.out.pub = s.out.pub ∧
  t.out.psEvt = s.out.psEvt ∧ t.out.txReq = s.out.txReq

/-- `t` is `s` apart from the registers of HI, HI's fields of the event record, the reading it hands on, and
the ports of `SegRom`. All of memory is as it was. -/
def SameOutsideHi (s t : State) : Prop :=
  t.fr = s.fr ∧ t.ps = s.ps ∧ t.tx = s.tx ∧ t.cfg = s.cfg ∧ t.segTable = s.segTable ∧
  t.inputs = s.inputs ∧ t.tick = s.tick ∧ t.wires.txSent = s.wires.txSent ∧
  t.out.frEvt = s.out.frEvt ∧ t.out.pkt = s.out.pkt ∧
  t.out.psEvt = s.out.psEvt ∧ t.out.txReq = s.out.txReq

/-- `t` is `s` apart from the registers of TX. All of memory is as it was. -/
def SameOutsideTx (s t : State) : Prop :=
  t.fr = s.fr ∧ t.hi = s.hi ∧ t.ps = s.ps ∧ t.cfg = s.cfg ∧ t.segTable = s.segTable ∧
  t.inputs = s.inputs ∧ t.out = s.out ∧ t.wires = s.wires ∧ t.tick = s.tick

/-- What a port of `SegRom` shows. -/
def portOf (s : State) : Port → DgOut
  | .hundreds => s.wires.dgHundreds
  | .tens => s.wires.dgTens
  | .ones => s.wires.dgOnes

/-- `t` is `s` with `g` shown at `port`, and nothing else changed. -/
def Shows (s t : State) (port : Port) (g : DgOut) : Prop :=
  portOf t port = g ∧ (∀ q, q ≠ port → portOf t q = portOf s q) ∧
  t.wires.reading = s.wires.reading ∧ t.wires.txSent = s.wires.txSent ∧
  t.fr = s.fr ∧ t.hi = s.hi ∧ t.ps = s.ps ∧ t.tx = s.tx ∧ t.cfg = s.cfg ∧
  t.segTable = s.segTable ∧ t.inputs = s.inputs ∧ t.out = s.out ∧ t.tick = s.tick

/-- Every byte of the buffer but the one at `a` reads as before. -/
def OtherBytesSame (m m' : Memory) (a : Nat) : Prop := ∀ x, x ≠ a → readByte m' x = readByte m x

/-! ### The invariant of 10 R39 -/

/-- 10 R39, item 2: an accumulating frame is not yet at its expected length. -/
abbrev FrameOpen (s : State) : Prop :=
  2 ≤ s.fr.cursor.toNat → s.fr.cursor.toNat < (readByte s.fr.buf 1).toNat + 2

/-- A frame being accumulated began with a start byte (41 R122). -/
abbrev FrameStarted (s : State) : Prop :=
  1 ≤ s.fr.cursor.toNat → readByte s.fr.buf 0 = 0x9B#8 ∨ readByte s.fr.buf 0 = 0x98#8

/-- 10 R39, items 3 and 4: the tracked height and the published height are valid together, equal, and from 1
to 9990. -/
abbrev HeightsAgree (s : State) : Prop :=
  s.hi.curHeightValid = s.hi.lastPubValid ∧
  (s.hi.curHeightValid = true →
    s.hi.curHeight = s.hi.lastPub ∧ 1 ≤ s.hi.curHeight.toNat ∧ s.hi.curHeight.toNat ≤ 9990)

/-- TX is free in BootWait (43 R187), and a free TX is at index 0 (44 R212). -/
abbrev TransmitterRests (s : State) : Prop :=
  (s.ps.psState = .bootWait → s.tx.txBusy = false) ∧ (s.tx.txBusy = false → s.tx.txIdx = 0#3)

/-- The invariant: a canonical buffer, and 10 R39 with the three facts beside it. Items 1 and 5 of 10 R39
hold by the types of `cursor` and `ps_state`. -/
abbrev Inv (s : State) : Prop :=
  Memory.wf s.fr.buf ∧ FrameOpen s ∧ FrameStarted s ∧ HeightsAgree s ∧ TransmitterRests s

/-! ### Runs -/

/-- The inputs hold no reset step. -/
abbrev NoReset (inps : List Input) : Prop := ∀ i ∈ inps, i.rst = false

/-- The bytes that FR takes from a list of inputs, in order (41 R120). -/
def received (inps : List Input) : List Byte :=
  (inps.filter (fun i => i.rxValid)).map (fun i => i.rxData)

/-- How many of the inputs have `tx_ready = 1`. -/
def readyCount (inps : List Input) : Nat := inps.countP (fun i => i.txReady)

/-- The bytes that TX transfers in the next `n` steps, in order (44 R211). -/
def sentBytes : Nat → State → List Byte
  | 0, _ => []
  | n + 1, s =>
    match step s with
    | .next t => t.wires.txSent.toList ++ sentBytes n t
    | .fault _ => []
    | .refused _ => []

/-- The pattern of a numeric digit, `SEG_TABLE[n]` (40 R100). -/
def digitPattern (t : SegTable) (n : Fin 10) : Pattern := t.toList.getD n.val 0#7

/-! ### The rules of FR as one function (41 R126), for comparison -/

/-- What FR makes of one byte: the next cursor and buffer, the event and the Packet. -/
structure FrResult where
  cursor : Nat
  buf : Memory
  evt : FrEvt
  pkt : Option Packet
  deriving DecidableEq, Repr

/-- `FrStep(cursor, buf, b)` as 41 R126 writes it, from rules R122 to R125. -/
def frStep (cursor : Nat) (buf : Memory) (b : Byte) : FrResult :=
  if cursor = 0 then
    if b = 0x9B#8 ∨ b = 0x98#8 then ⟨1, writeByte buf 0 b, .none, none⟩ else ⟨0, buf, .none, none⟩
  else
    let buf1 := writeByte buf cursor b
    let len := (readByte buf1 1).toNat
    if cursor + 1 = len + 2 then
      if b ≠ 0x9D#8 then ⟨0, buf1, .badEnd, none⟩
      else if len < 2 then ⟨0, buf1, .badLength, none⟩
      else
        ⟨0, buf1, .packet,
          some
            { start := readByte buf1 0, length := readByte buf1 1, type := readByte buf1 2,
              payload := (List.range (len - 2)).map fun k => readByte buf1 (3 + k),
              endByte := readByte buf1 (len + 1) }⟩
    else if cursor + 1 = 32 then ⟨0, buf1, .overflow, none⟩
    else ⟨cursor + 1, buf1, .none, none⟩

end Sys2Proof.Safety
end

