-- ==== Sys2Proof/Certificates/Slice0/Obligations.lean ====
section
/-! DEFINITION. The statements for the provers. "10 R33" is rule R33 of the file 10_… of spec/; "log 3" is
notes/assumptions/3.md. -/

open Sys2Proof Sys2Proof.Machine Sys2Proof.Safety

/-! ### Encoding -/

/-- Decoding an encoded well-formed instruction where it stands gives it back, under every legal segment
table (30 sections 1 to 6; 40 section 1). -/
def Obligations.DecodeInvertsEncode : Prop :=
  ∀ (t : SegTable) (i : Instr), t.wf → i.wf t = true →
    decode t (contextOf i) (encode t i) = .ok i

/-- Bytes that decode in a context are the encoding of the instruction they decode to, which is well-formed
and stands in that context: no bit of an encoding is dropped, and each byte string has one meaning in its
place. -/
def Obligations.EncodeInvertsDecode : Prop :=
  ∀ (t : SegTable) (c : Context) (bytes : List Byte) (i : Instr), decode t c bytes = .ok i →
    i.wf t = true ∧ contextOf i = c ∧ encode t i = bytes

/-- Words written out from the spec's encodings decode to the instructions they stand for: one or more of each
family. The digit words hold under the default segment table, which is PRESUMED (log 3). -/
def Obligations.WrittenWordsDecode : Prop :=
  decode defaultSegTable (.frame .scanning) [0b10011011#8] = .ok .start9b ∧
  decode defaultSegTable (.frame .scanning) [0b10011000#8] = .ok .start98 ∧
  decode defaultSegTable (.frame .atEnd) [0b10011101#8] = .ok .end9d ∧
  decode defaultSegTable (.frame .length) [0b00011110#8] = .ok (.lenOk 30#8) ∧
  decode defaultSegTable (.frame .length) [0b00011111#8] = .ok (.lenOverflow 31#8) ∧
  decode defaultSegTable (.message 7#8) [0x12#8, 0x06#8, 0x5B#8, 0x4F#8, 0#8, 0#8] =
    .ok (.msgHeight 0x06#8 0x5B#8 0x4F#8 0#8 0#8) ∧
  decode defaultSegTable .command
    [0x9B#8, 0x06#8, 0x02#8, 0x20#8, 0x00#8, 0xAC#8, 0xB8#8, 0x9D#8] = .ok .cmdWake ∧
  decode defaultSegTable .command
    [0x9B#8, 0x06#8, 0x02#8, 0x00#8, 0x00#8, 0x6C#8, 0xA1#8, 0x9D#8] = .ok .cmdSilent ∧
  decode defaultSegTable (.digit .tens) [0b11011011#8] = .ok (.digit2 .tens true) ∧
  decode defaultSegTable (.digit .ones) [0b01000000#8] = .ok (.digitMinus .ones false)

/-- Under the default segment table (PRESUMED, log 3) exactly 12 of the 128 patterns, and 24 of the 256 bytes,
decode to something other than Invalid (40 section 3). -/
def Obligations.DefaultTableHasTwelvePatterns : Prop :=
  (((List.range 128).filter fun k => segRom defaultSegTable (BitVec.ofNat 7 k) ≠ .invalid).length = 12) ∧
  (((List.range 256).filter fun k =>
      segRom defaultSegTable (patternOf (BitVec.ofNat 8 k)) ≠ .invalid).length = 24)

/-- Every byte, in every place of a frame, is a well-formed instruction of that place, whose encoding is the
byte (30 sections 5 and 6). -/
def Obligations.EveryFrameByteIsAnInstruction : Prop :=
  ∀ (t : SegTable) (c : FrameContext) (b : Byte),
    (decodeFrameByte c b).wf t = true ∧ contextOf (decodeFrameByte c b) = .frame c ∧
    encode t (decodeFrameByte c b) = [b]

/-! ### FR -/

/-- START_9B and START_98 in scanning: the byte is stored at index 0, the cursor becomes 1, no event; every
other byte of the buffer and everything outside FR is as it was (41 section 2). -/
def Obligations.StartByteBeginsFrame : Prop :=
  ∀ (s : State) (i : Instr) (b : Byte),
    (i = .start9b ∧ b = 0x9B#8) ∨ (i = .start98 ∧ b = 0x98#8) →
    s.fr.cursor = 0#5 → Memory.wf s.fr.buf →
    ∃ t, exec i s = .next t ∧
      readByte t.fr.buf 0 = b ∧ OtherBytesSame s.fr.buf t.fr.buf 0 ∧ t.fr.cursor = 1#5 ∧
      t.out.frEvt = .none ∧ t.out.pkt = s.out.pkt ∧ SameOutsideFr s t

/-- NOISE in scanning: no event, and no state changes (41 R127). -/
def Obligations.NoiseIsDropped : Prop :=
  ∀ (s : State) (b : Byte), s.fr.cursor = 0#5 → b ≠ 0x9B#8 → b ≠ 0x98#8 →
    ∃ t, exec (.noise b) s = .next t ∧
      t.fr = s.fr ∧ t.out.frEvt = .none ∧ t.out.pkt = s.out.pkt ∧ SameOutsideFr s t

/-- DATA, a byte of a frame that is not its last: it is stored at the cursor, which advances; the 32nd byte of a
frame that has not completed raises OVERFLOW instead and sets the cursor to 0. Every other byte and
everything outside FR is as it was (41 section 2). -/
def Obligations.DataByteIsStored : Prop :=
  ∀ (s : State) (b : Byte), 2 ≤ s.fr.cursor.toNat →
    s.fr.cursor.toNat + 1 ≠ (readByte s.fr.buf 1).toNat + 2 → Memory.wf s.fr.buf →
    ∃ t, exec (.data b) s = .next t ∧
      readByte t.fr.buf s.fr.cursor.toNat = b ∧
      OtherBytesSame s.fr.buf t.fr.buf s.fr.cursor.toNat ∧
      (if s.fr.cursor.toNat = 31 then t.fr.cursor = 0#5 ∧ t.out.frEvt = .overflow
       else t.fr.cursor.toNat = s.fr.cursor.toNat + 1 ∧ t.out.frEvt = .none) ∧
      t.out.pkt = s.out.pkt ∧ SameOutsideFr s t

/-- LEN_1, LEN_OK and LEN_OVERFLOW at frame index 1: the length byte is stored there, the cursor becomes 2, no
event; every other byte and everything outside FR is as it was (30 section 1; 41 section 2). -/
def Obligations.LengthByteIsStored : Prop :=
  ∀ (s : State) (i : Instr) (b : Byte),
    (i = .len1 ∧ b = 1#8) ∨ (i = .lenOk b ∧ 2 ≤ b.toNat ∧ b.toNat ≤ 30) ∨
      (i = .lenOverflow b ∧ 31 ≤ b.toNat) →
    s.fr.cursor = 1#5 → Memory.wf s.fr.buf →
    ∃ t, exec i s = .next t ∧
      readByte t.fr.buf 1 = b ∧ OtherBytesSame s.fr.buf t.fr.buf 1 ∧ t.fr.cursor = 2#5 ∧
      t.out.frEvt = .none ∧ t.out.pkt = s.out.pkt ∧ SameOutsideFr s t

/-- LEN_0 at frame index 1: the length byte is stored and is itself a bad end, so the frame is discarded with
BAD_END and the cursor becomes 0 (30 section 1; 41 section 2). -/
def Obligations.ZeroLengthIsBadEnd : Prop :=
  ∀ s : State, s.fr.cursor = 1#5 → Memory.wf s.fr.buf →
    ∃ t, exec .len0 s = .next t ∧
      readByte t.fr.buf 1 = 0#8 ∧ OtherBytesSame s.fr.buf t.fr.buf 1 ∧ t.fr.cursor = 0#5 ∧
      t.out.frEvt = .badEnd ∧ t.out.pkt = s.out.pkt ∧ SameOutsideFr s t

/-- END_9D at frame index `L + 1`: the byte is stored and the cursor becomes 0; with `L = 1` the frame is
discarded with BAD_LENGTH and no Packet, otherwise the Packet of the frame's bytes is delivered. Every other
byte and everything outside FR is as it was (41 section 2). -/
def Obligations.EndByteCompletesFrame : Prop :=
  ∀ s : State, 2 ≤ s.fr.cursor.toNat →
    s.fr.cursor.toNat + 1 = (readByte s.fr.buf 1).toNat + 2 → Memory.wf s.fr.buf →
    ∃ t, exec .end9d s = .next t ∧
      readByte t.fr.buf s.fr.cursor.toNat = 0x9D#8 ∧
      OtherBytesSame s.fr.buf t.fr.buf s.fr.cursor.toNat ∧ t.fr.cursor = 0#5 ∧
      (if (readByte s.fr.buf 1).toNat = 1 then
        t.out.frEvt = .badLength ∧ t.out.pkt = s.out.pkt
       else
        t.out.frEvt = .packet ∧
        t.out.pkt = some
          { start := readByte s.fr.buf 0, length := readByte s.fr.buf 1, type := readByte s.fr.buf 2,
            payload := (List.range ((readByte s.fr.buf 1).toNat - 2)).map
              fun k => readByte s.fr.buf (3 + k),
            endByte := 0x9D#8 }) ∧
      SameOutsideFr s t

/-- BAD_END, any other byte at frame index `L + 1`: the byte is stored and the frame is discarded with BAD_END,
without a Packet. Every other byte and everything outside FR is as it was (41 section 2). -/
def Obligations.WrongEndByteDiscardsFrame : Prop :=
  ∀ (s : State) (b : Byte), b ≠ 0x9D#8 → 2 ≤ s.fr.cursor.toNat →
    s.fr.cursor.toNat + 1 = (readByte s.fr.buf 1).toNat + 2 → Memory.wf s.fr.buf →
    ∃ t, exec (.badEnd b) s = .next t ∧
      readByte t.fr.buf s.fr.cursor.toNat = b ∧
      OtherBytesSame s.fr.buf t.fr.buf s.fr.cursor.toNat ∧ t.fr.cursor = 0#5 ∧
      t.out.frEvt = .badEnd ∧ t.out.pkt = s.out.pkt ∧ SameOutsideFr s t

/-- `raise FrameError(code)` sets `cursor <- 0`, leaves `buf` stale and sets `fr_evt <- code`; it writes no HI,
PS or TX state and produces no Packet (60 R231). -/
def Obligations.FrameErrorDoesThreeThings : Prop :=
  ∀ (code : FrEvt) (s : State),
    (frameError code s).fr.cursor = 0#5 ∧ (frameError code s).fr.buf = s.fr.buf ∧
    (frameError code s).out.frEvt = code ∧ (frameError code s).out.pkt = s.out.pkt ∧
    SameOutsideFr s (frameError code s)

/-- Decoding a byte where it stands and executing its class is the FR step of rules R122 to R125: the same
cursor, the same buffer, the same event and the same Packet, from every state with a canonical buffer. -/
def Obligations.FrameStepFollowsRules : Prop :=
  ∀ (s : State) (b : Byte), Memory.wf s.fr.buf → s.out.pkt = none →
    ∃ t, exec (decodeFrameByte (frameContext s.fr) b) s = .next t ∧
      t.fr.cursor.toNat = (frStep s.fr.cursor.toNat s.fr.buf b).cursor ∧
      t.fr.buf = (frStep s.fr.cursor.toNat s.fr.buf b).buf ∧
      t.out.frEvt = (frStep s.fr.cursor.toNat s.fr.buf b).evt ∧
      t.out.pkt = (frStep s.fr.cursor.toNat s.fr.buf b).pkt ∧
      SameOutsideFr s t

/-- In a clock step without a received byte, or with reset, FR stores nothing: the buffer is as it was and
`fr_evt = NONE`; without reset the cursor is as it was too (41 section 1). -/
def Obligations.ReceiverWaitsForAByte : Prop :=
  ∀ (s : State) (inp : Input) (rest : List Input), s.inputs = inp :: rest →
    inp.rxValid = false ∨ inp.rst = true →
    ∃ t, step s = .next t ∧ t.fr.buf = s.fr.buf ∧ t.out.frEvt = .none ∧ t.out.pkt = none ∧
      (inp.rst = false → t.fr.cursor = s.fr.cursor)

/-- After a step with an FR event, a Packet or a framing error, FR is scanning: the next byte begins a frame or is noise
(41 R129, derived there). -/
def Obligations.EveryFrameEventEndsTheFrame : Prop :=
  ∀ (s : State) (inp : Input) (rest : List Input), s.inputs = inp :: rest → inp.rst = false →
    ∃ t, step s = .next t ∧ (t.out.frEvt ≠ .none → t.fr.cursor = 0#5)

/-- A Packet that a step delivers is valid: a start byte, a length from 2 to 30, a payload of two bytes less than the
length, the end byte 0x9D; it comes with `fr_evt = PACKET`, and without that event there is none. The invariant
excludes frames that no start byte began (30 section 1; 41 section 3: the framing property from left to
right). -/
def Obligations.DeliveredPacketIsValid : Prop :=
  ∀ (s : State) (inp : Input) (rest : List Input), Inv s → s.inputs = inp :: rest →
    ∃ t, step s = .next t ∧
      (∀ p, t.out.pkt = some p →
        (p.start = 0x9B#8 ∨ p.start = 0x98#8) ∧ 2 ≤ p.length.toNat ∧ p.length.toNat ≤ 30 ∧
        p.payload.length + 2 = p.length.toNat ∧ p.endByte = 0x9D#8) ∧
      (t.out.pkt.isSome = true ↔ t.out.frEvt = .packet)

/-! ### HI -/

/-- MSG_HEARTBEAT, MSG_HEIGHT_BADLEN and MSG_OTHER set `hi_evt` to HEARTBEAT or OTHER and do nothing else: no
activity, no publish, no register, no byte of memory (42 section 1). -/
def Obligations.IgnoredMessagesSetOnlyTheirCode : Prop :=
  ∀ (s : State) (i : Instr) (e : HiEvt),
    (∃ len payload, i = .msgHeartbeat len payload ∧ e = .heartbeat) ∨
      (∃ len payload, i = .msgHeightBadlen len payload ∧ e = .other) ∨
      (∃ type len payload, i = .msgOther type len payload ∧ e = .other) →
    ∃ t, exec i s = .next t ∧ t.out = { s.out with hiEvt := e } ∧ t.hi = s.hi ∧ t.wires = s.wires ∧
      SameOutsideHi s t

/-- DISPATCH: a Packet of type 0x11 is a heartbeat whatever its length, one of type 0x12 and length 7 a height
broadcast of its five payload bytes, and every other Packet is OTHER (42 R151). -/
def Obligations.MessageClassByTypeAndLength : Prop :=
  ∀ (p : Packet), deliverable p.length p.payload = true →
    (p.type = 0x11#8 → messageOf p = .msgHeartbeat p.length p.payload) ∧
    (p.type = 0x12#8 → p.length = 7#8 →
      ∃ h t o r3 r4, p.payload = [h, t, o, r3, r4] ∧ messageOf p = .msgHeight h t o r3 r4) ∧
    (p.type ≠ 0x11#8 → ¬(p.type = 0x12#8 ∧ p.length = 7#8) →
      ∀ s, ∃ t, exec (messageOf p) s = .next t ∧ t.out = { s.out with hiEvt := .other } ∧
        t.hi = s.hi ∧ SameOutsideHi s t)

/-- MSG_HEIGHT: its outcome is the first that applies of ALL_BLANK, INVALID_DIGIT, ALL_ZERO, MINUS, NONNUMERIC,
READING, on the digits that `SegRom` gives, a Blank hundreds digit counting as 0 after the first test; an
outcome other than READING changes no HI register and gives no activity and no publish. Everything outside
HI is as it was, all of memory with it (42 section 2). -/
def Obligations.HeightOutcomeInOrder : Prop :=
  ∀ (s : State) (bh bt bo r3 r4 : Byte),
    ∃ t, exec (.msgHeight bh bt bo r3 r4) s = .next t ∧
      (let dh0 := segRom s.segTable (bh.setWidth 7)
       let dt := segRom s.segTable (bt.setWidth 7)
       let dO := segRom s.segTable (bo.setWidth 7)
       let dh := if dh0 = .blank then .num 0 else dh0
       t.out.hiEvt =
        if dh0 = .blank ∧ dt = .blank ∧ dO = .blank then .allBlank
        else if dh = .invalid ∨ dt = .invalid ∨ dO = .invalid then .invalidDigit
        else if dh = .num 0 ∧ dt = .num 0 ∧ dO = .num 0 then .allZero
        else if dt = .minus then .minus
        else if (digitValue dh).isSome ∧ (digitValue dt).isSome ∧ (digitValue dO).isSome then .reading
        else .nonnumeric) ∧
      (t.out.hiEvt ≠ .reading →
        t.hi = s.hi ∧ t.out.activity = s.out.activity ∧ t.out.pub = s.out.pub ∧
        t.wires.reading = s.wires.reading) ∧
      SameOutsideHi s t

/-- A height broadcast whose digits are numeric (a Blank hundreds digit counting as 0) and not all 0 is a reading
`v` of `raw` tenths with the decimal point of the tens byte and `10 * raw` without. It becomes the tracked
height; `changed` compares it with the old one; the activity signal follows the policy; it is published,
and becomes the last published value, exactly when it is the first or differs from the last (42 R157,
R160 to R162). -/
def Obligations.ReadingIsCommitted : Prop :=
  ∀ (s : State) (bh bt bo r3 r4 : Byte) (x y z : Fin 10),
    segRom s.segTable (bh.setWidth 7) = .num x ∨
      (segRom s.segTable (bh.setWidth 7) = .blank ∧ x = 0) →
    segRom s.segTable (bt.setWidth 7) = .num y → segRom s.segTable (bo.setWidth 7) = .num z →
    ¬(x = 0 ∧ y = 0 ∧ z = 0) →
    ∃ (t : State) (v : Height) (changed : Bool), exec (.msgHeight bh bt bo r3 r4) s = .next t ∧
      v.toNat = (if bt.getLsbD 7 then 100 * x.val + 10 * y.val + z.val
                 else 10 * (100 * x.val + 10 * y.val + z.val)) ∧
      changed = (!s.hi.curHeightValid || decide (v ≠ s.hi.curHeight)) ∧
      t.out.hiEvt = .reading ∧ t.wires.reading = some ⟨v, changed⟩ ∧
      t.hi.curHeight = v ∧ t.hi.curHeightValid = true ∧
      t.out.activity = (match s.cfg.activityPolicy with | .everyReading => true | .onChange => changed) ∧
      (if s.hi.lastPubValid = false ∨ v ≠ s.hi.lastPub then
        t.out.pub = some v ∧ t.hi.lastPub = v ∧ t.hi.lastPubValid = true
       else
        t.out.pub = none ∧ t.hi.lastPub = s.hi.lastPub ∧ t.hi.lastPubValid = s.hi.lastPubValid) ∧
      SameOutsideHi s t

/-- In every clock step without reset, whatever FR received: unless `hi_evt = READING`, every HI register is as it
was, `activity = 0` and `pub_valid = 0` (42 R163). -/
def Obligations.IgnoredPacketChangesNothing : Prop :=
  ∀ (s : State) (inp : Input) (rest : List Input), s.inputs = inp :: rest → inp.rst = false →
    ∃ t, step s = .next t ∧
      (t.out.hiEvt ≠ .reading → t.hi = s.hi ∧ t.out.activity = false ∧ t.out.pub = none)

/-! ### DG -/

/-- Each of the thirteen digit classes shows its Digit and its decimal-point bit at its port and changes nothing
else: no register, no event, no byte of memory (40 section 2). -/
def Obligations.DigitRowsShowTheirDigit : Prop :=
  ∀ (s : State) (port : Port) (d : Bool) (p : Pattern) (i : Instr) (g : Digit),
    (i = .digit0 port d ∧ g = .num 0) ∨ (i = .digit1 port d ∧ g = .num 1) ∨
    (i = .digit2 port d ∧ g = .num 2) ∨ (i = .digit3 port d ∧ g = .num 3) ∨
    (i = .digit4 port d ∧ g = .num 4) ∨ (i = .digit5 port d ∧ g = .num 5) ∨
    (i = .digit6 port d ∧ g = .num 6) ∨ (i = .digit7 port d ∧ g = .num 7) ∨
    (i = .digit8 port d ∧ g = .num 8) ∨ (i = .digit9 port d ∧ g = .num 9) ∨
    (i = .digitMinus port d ∧ g = .minus) ∨ (i = .digitBlank port d ∧ g = .blank) ∨
    (i = .digitInvalid port d p ∧ g = .invalid) →
    ∃ t, exec i s = .next t ∧ Shows s t port ⟨g, d⟩

/-- A digit byte, decoded at a port, shows there `SegRom(b[6:0])` and the flag `b[7]`, writes nothing and raises no
event; bit 7 never changes the digit, and the pattern 0 is Blank (40 R102, R103). -/
def Obligations.DigitByteDecodesByRom : Prop :=
  ∀ (s : State) (port : Port) (b : Byte),
    (∃ t, exec (decodeDigit s.segTable port b) s = .next t ∧
      Shows s t port ⟨segRom s.segTable (b.setWidth 7), b.getLsbD 7⟩) ∧
    (∃ t d, exec (decodeDigit s.segTable port (b ^^^ 0x80#8)) s = .next t ∧
      Shows s t port ⟨segRom s.segTable (b.setWidth 7), d⟩) ∧
    segRom s.segTable 0#7 = .blank

/-- `SegRom` under a legal `SEG_TABLE`: Blank at 0, `Num(k)` at `SEG_TABLE[k]`, Minus at `SEG_TABLE[10]`, Invalid
elsewhere; and the 4-bit codes of its entries (40 R100). -/
def Obligations.SegRomFollowsTable : Prop :=
  (∀ t : SegTable, t.wf →
    segRom t 0#7 = .blank ∧
    (∀ k : Fin 10, segRom t (digitPattern t k) = .num k) ∧
    segRom t t.minus = .minus ∧
    (∀ p : Pattern, p ≠ 0#7 → p ∉ t.toList → segRom t p = .invalid)) ∧
  (∀ n : Fin 10, (digitCode (.num n)).toNat = n.val) ∧
  digitCode .minus = 10#4 ∧ digitCode .blank = 11#4 ∧ digitCode .invalid = 15#4

/-- A height broadcast executes the digit rows of its first three payload bytes, at the hundreds, the tens and the
ones port, and HI then judges what the ports show (the model's form of 42 section 2, step 1: log 11). -/
def Obligations.HeightRunsDigitRows : Prop :=
  ∀ (s : State) (bh bt bo r3 r4 : Byte),
    exec (.msgHeight bh bt bo r3 r4) s =
      andThen (exec (decodeDigit s.segTable .hundreds bh) s) fun s1 =>
      andThen (exec (decodeDigit s1.segTable .tens bt) s1) fun s2 =>
      andThen (exec (decodeDigit s2.segTable .ones bo) s2) fun s3 =>
      .next (interpretHeight s3)

/-! ### PS -/

/-- In every clock step without reset, `last_activity_time` becomes `now_ms` if the step has an activity signal, and
is kept otherwise (43 R186). -/
def Obligations.ActivityRefreshesTimer : Prop :=
  ∀ (s : State) (inp : Input) (rest : List Input), s.inputs = inp :: rest → inp.rst = false →
    ∃ t, step s = .next t ∧
      t.ps.lastActivityTime = if t.out.activity = true then inp.nowMs else s.ps.lastActivityTime

/-- BOOTWAIT-STEP: with the boot delay exceeded and TX free, PS goes to Idle, records the time and requests the boot
command; otherwise it stays, with no request and no event (43 R187). -/
def Obligations.BootWaitStepFollowsRule : Prop :=
  ∀ (s : State) (inp : Input) (rest : List Input), s.inputs = inp :: rest → inp.rst = false →
    s.ps.psState = .bootWait →
    ∃ t, step s = .next t ∧ t.ps.bootTime = s.ps.bootTime ∧
      if s.cfg.bootDelay < elapsed inp.nowMs s.ps.bootTime ∧ s.tx.txBusy = false then
        t.ps.psState = .idle ∧ t.ps.lastPollTime = inp.nowMs ∧
        t.out.txReq = some s.cfg.bootCmd ∧ t.out.psEvt = .bootToIdle
      else
        t.ps.psState = .bootWait ∧ t.ps.lastPollTime = s.ps.lastPollTime ∧
        t.out.txReq = none ∧ t.out.psEvt = .none

/-- IDLE-STEP: a changed reading of the same step moves PS to Active without a command; else, with the idle interval
reached and TX free, PS polls with the idle command; else nothing (43 R188). -/
def Obligations.IdleStepFollowsRule : Prop :=
  ∀ (s : State) (inp : Input) (rest : List Input), s.inputs = inp :: rest → inp.rst = false →
    s.ps.psState = .idle →
    ∃ t, step s = .next t ∧ t.ps.bootTime = s.ps.bootTime ∧
      if t.out.hiEvt = .reading ∧ t.wires.reading.map Reading.changed = some true then
        t.ps.psState = .active ∧ t.ps.lastPollTime = s.ps.lastPollTime ∧
        t.out.txReq = none ∧ t.out.psEvt = .idleToActive
      else if s.cfg.idleInterval ≤ elapsed inp.nowMs s.ps.lastPollTime ∧ s.tx.txBusy = false then
        t.ps.psState = .idle ∧ t.ps.lastPollTime = inp.nowMs ∧
        t.out.txReq = some s.cfg.idleCmd ∧ t.out.psEvt = .idlePoll
      else
        t.ps.psState = .idle ∧ t.ps.lastPollTime = s.ps.lastPollTime ∧
        t.out.txReq = none ∧ t.out.psEvt = .none

/-- ACTIVE-STEP: with the activity timeout exceeded since `last_activity_time'`, the value after this step's activity
update, PS goes back to Idle without a command; else, with the active interval reached and TX free, it polls
with the active command; else nothing (43 R189). -/
def Obligations.ActiveStepFollowsRule : Prop :=
  ∀ (s : State) (inp : Input) (rest : List Input), s.inputs = inp :: rest → inp.rst = false →
    s.ps.psState = .active →
    ∃ t, step s = .next t ∧ t.ps.bootTime = s.ps.bootTime ∧
      if s.cfg.activityTimeout < elapsed inp.nowMs t.ps.lastActivityTime then
        t.ps.psState = .idle ∧ t.ps.lastPollTime = s.ps.lastPollTime ∧
        t.out.txReq = none ∧ t.out.psEvt = .activeToIdle
      else if s.cfg.activeInterval ≤ elapsed inp.nowMs s.ps.lastPollTime ∧ s.tx.txBusy = false then
        t.ps.psState = .active ∧ t.ps.lastPollTime = inp.nowMs ∧
        t.out.txReq = some s.cfg.activeCmd ∧ t.out.psEvt = .activePoll
      else
        t.ps.psState = .active ∧ t.ps.lastPollTime = s.ps.lastPollTime ∧
        t.out.txReq = none ∧ t.out.psEvt = .none

/-- Every step answers a next state whose `ps_state` is the same or follows by BootWait to Idle, Idle to Active or
Active to Idle; only a reset step enters BootWait (43 R185). -/
def Obligations.SchedulerTransitions : Prop :=
  ∀ (s : State) (inp : Input) (rest : List Input), s.inputs = inp :: rest →
    ∃ t, step s = .next t ∧
      (inp.rst = false →
        t.ps.psState = s.ps.psState ∨
        (s.ps.psState = .bootWait ∧ t.ps.psState = .idle) ∨
        (s.ps.psState = .idle ∧ t.ps.psState = .active) ∨
        (s.ps.psState = .active ∧ t.ps.psState = .idle)) ∧
      (t.ps.psState = .bootWait → s.ps.psState = .bootWait ∨ inp.rst = true)

/-- A clock step makes a request only with TX free at its start, and TX takes it in the same step; while TX is busy
no poll fires: no request, `last_poll_time` kept, and BootWait is not left (43 section 3). -/
def Obligations.RequestsWaitForTransmitter : Prop :=
  ∀ (s : State) (inp : Input) (rest : List Input), s.inputs = inp :: rest → inp.rst = false →
    ∃ t, step s = .next t ∧
      (∀ v, t.out.txReq = some v →
        s.tx.txBusy = false ∧ t.tx = { txBusy := true, txSel := v, txIdx := 0#3 }) ∧
      (s.tx.txBusy = true →
        t.out.txReq = none ∧ t.ps.lastPollTime = s.ps.lastPollTime ∧
        (s.ps.psState = .bootWait → t.ps.psState = .bootWait))

/-- With the longest boot delay, `2^32 - 1`, PS stays in BootWait through every run without reset and, TX being free,
sends nothing (70 section 2, hazard 1). -/
def Obligations.LongestBootDelayNeverEnds : Prop :=
  ∀ (inps : List Input) (s : State), s.inputs = inps → NoReset inps →
    s.ps.psState = .bootWait → s.cfg.bootDelay = 0xFFFFFFFF#32 → s.tx.txBusy = false →
    ∃ t, Host.Core.run core inps.length s = .next t ∧
      t.ps.psState = .bootWait ∧ sentBytes inps.length s = []

/-- With the longest activity timeout, `2^32 - 1`, PS, once in Active, stays there through every run without reset (70
section 2, hazard 2). -/
def Obligations.LongestTimeoutNeverEnds : Prop :=
  ∀ (inps : List Input) (s : State), s.inputs = inps → NoReset inps →
    s.ps.psState = .active → s.cfg.activityTimeout = 0xFFFFFFFF#32 →
    ∃ t, Host.Core.run core inps.length s = .next t ∧ t.ps.psState = .active

/-- `elapsed(now, ref)` is `(now - ref) mod 2^32` (00 R11). -/
def Obligations.ElapsedIsModular : Prop :=
  ∀ (now ref : Time), ((elapsed now ref).toNat : Int) = ((now.toNat : Int) - (ref.toNat : Int)) % 2 ^ 32

/-! ### TX -/

/-- CMD_WAKE and CMD_SILENT: TX takes the command, `tx_busy <- 1`, `tx_sel <- v`, `tx_idx <- 0`; nothing else
changes, all of memory with it (44 R213). -/
def Obligations.CommandIsAccepted : Prop :=
  ∀ (s : State) (i : Instr) (v : Variant),
    (i = .cmdWake ∧ v = .wake) ∨ (i = .cmdSilent ∧ v = .silent) →
    ∃ t, exec i s = .next t ∧ t.tx = { txBusy := true, txSel := v, txIdx := 0#3 } ∧ SameOutsideTx s t

/-- SEND and ADVANCE in a clock step without reset that starts with TX busy: with `tx_ready = 1` the byte
`CmdRom(tx_sel, tx_idx)` is transferred and the index moves on, or, at 7, TX becomes free at index 0; with
`tx_ready = 0` nothing is transferred and TX holds (44 R211, R212). -/
def Obligations.HandshakeSendsOneByte : Prop :=
  ∀ (s : State) (inp : Input) (rest : List Input), s.inputs = inp :: rest → inp.rst = false →
    s.tx.txBusy = true →
    ∃ t, step s = .next t ∧ t.tx.txSel = s.tx.txSel ∧
      if inp.txReady = true then
        t.wires.txSent = some (cmdRom s.tx.txSel s.tx.txIdx) ∧
        (if s.tx.txIdx = 7#3 then t.tx.txBusy = false ∧ t.tx.txIdx = 0#3
         else t.tx.txBusy = true ∧ t.tx.txIdx = s.tx.txIdx + 1#3)
      else t.wires.txSent = none ∧ t.tx = s.tx

/-- A command that TX has accepted goes out whole: through every run without reset, with `tx_ready` set in any `n`
of its steps, `n` at most 8, the transport receives the first `n` bytes of the command, in order and with
nothing between them, whatever else the run does (44 R215, derived there). -/
def Obligations.CommandGoesOutWhole : Prop :=
  ∀ (inps rest : List Input) (s : State) (v : Variant), s.inputs = inps ++ rest → NoReset inps →
    s.tx = { txBusy := true, txSel := v, txIdx := 0#3 } → readyCount inps ≤ 8 →
    sentBytes inps.length s = (cmdBytes v).take (readyCount inps)

/-- The contents of `CmdRom`, all sixteen entries (44 R210). -/
def Obligations.CommandRomContents : Prop :=
  (List.range 8).map (fun k => cmdRom .wake (BitVec.ofNat 3 k)) =
    [0x9B#8, 0x06#8, 0x02#8, 0x20#8, 0x00#8, 0xAC#8, 0xB8#8, 0x9D#8] ∧
  (List.range 8).map (fun k => cmdRom .silent (BitVec.ofNat 3 k)) =
    [0x9B#8, 0x06#8, 0x02#8, 0x00#8, 0x00#8, 0x6C#8, 0xA1#8, 0x9D#8] ∧
  Variant.wake.code = 1#1 ∧ Variant.silent.code = 0#1

/-! ### The step -/

/-- A clock step without reset decodes the received byte where it stands and executes it on the state that starts the
step, and the other units follow; without a received byte they act at once (10 section 9; log 11). -/
def Obligations.StepExecutesReceivedByte : Prop :=
  ∀ (s : State) (inp : Input) (rest : List Input), s.inputs = inp :: rest → inp.rst = false →
    (inp.rxValid = true →
      step s =
        andThen (exec (decodeFrameByte (frameContext s.fr) inp.rxData) (beginStep { s with inputs := rest }))
          (afterFr inp)) ∧
    (inp.rxValid = false → step s = afterFr inp (beginStep { s with inputs := rest }))

/-- After FR, a step executes the message class of the Packet that FR delivered, if there is one; then PS acts; then
TX moves its byte on and executes the command that PS requested, if there is one (10 section 9; log 11). -/
def Obligations.StepExecutesMessageAndCommand : Prop :=
  ∀ (s : State) (inp : Input),
    afterFr inp s = andThen (hiPhase s) (fun u => txPhase inp (psStep inp.nowMs u)) ∧
    (∀ p, s.out.pkt = some p → hiPhase s = exec (decodeMessage p.length p.type p.payload) s) ∧
    (s.out.pkt = none → hiPhase s = .next s) ∧
    (s.out.txReq = some .wake → txPhase inp s = exec .cmdWake (advance inp.txReady s)) ∧
    (s.out.txReq = some .silent → txPhase inp s = exec .cmdSilent (advance inp.txReady s)) ∧
    (s.out.txReq = none → txPhase inp s = .next (advance inp.txReady s))

/-- No step of E7FR stops: from every state the step answers a next state, with no fault and no refusal (60
section 1: no error stops E7FR). -/
def Obligations.StepNeverStops : Prop := ∀ s : State, ∃ t, step s = .next t

/-- A reset step: every register at its reset value, the three times at `now_ms`, no event, no transfer, `tx_valid = 0`.
The buffer is left as it is, and the configuration and the segment table are not written (70 R260). That a
step takes one entry of the input list is the model's form (log 1). -/
def Obligations.ResetStepSetsRegisters : Prop :=
  ∀ (s : State) (inp : Input) (rest : List Input), s.inputs = inp :: rest → inp.rst = true →
    ∃ t, step s = .next t ∧
      t.fr.cursor = 0#5 ∧ t.fr.buf = s.fr.buf ∧
      t.hi.curHeightValid = false ∧ t.hi.lastPubValid = false ∧
      t.ps = { psState := .bootWait, bootTime := inp.nowMs, lastPollTime := inp.nowMs,
               lastActivityTime := inp.nowMs } ∧
      t.tx.txBusy = false ∧ t.tx.txIdx = 0#3 ∧
      t.out = { frEvt := .none, pkt := none, hiEvt := .none, activity := false, pub := none,
                psEvt := .none, txReq := none } ∧
      t.wires.txSent = none ∧ (levels inp.rst s).txValid = false ∧
      t.cfg = s.cfg ∧ t.segTable = s.segTable ∧ t.inputs = rest

/-- `rst` has priority over every other input: in a reset step the received byte and `tx_ready` make no difference
(70 R263). -/
def Obligations.ResetOverridesInputs : Prop :=
  ∀ (s : State) (rest : List Input) (i j : Input),
    i.rst = true → j.rst = true → i.nowMs = j.nowMs →
    step { s with inputs := i :: rest } = step { s with inputs := j :: rest }

/-- The state after reset, in the registers to which the spec gives a reset value: scanning, no valid height, BootWait,
the three times equal, TX free at index 0, no event (10 section 10). -/
def Obligations.ResetStateValues : Prop :=
  State.reset.fr.cursor = 0#5 ∧ State.reset.hi.curHeightValid = false ∧
  State.reset.hi.lastPubValid = false ∧ State.reset.ps.psState = .bootWait ∧
  State.reset.ps.lastPollTime = State.reset.ps.bootTime ∧
  State.reset.ps.lastActivityTime = State.reset.ps.bootTime ∧
  State.reset.tx.txBusy = false ∧ State.reset.tx.txIdx = 0#3 ∧ State.reset.out = Out.quiet

/-- Every step keeps the buffer in its canonical form, which is the model's representation of `buf` (log 7). -/
def Obligations.BufferStaysCanonical : Prop :=
  ∀ s t : State, Memory.wf s.fr.buf → step s = .next t → Memory.wf t.fr.buf

/-- Every step keeps the invariant: a canonical buffer; an open frame below its expected length, begun by a start byte;
the tracked and the published height valid together, equal and from 1 to 9990; TX free in BootWait, and at
index 0 when free. The open frame and the heights are 10 section 11; the start byte is 41 section 2; TX is 43
section 3 and 44, operation ADVANCE; the canonical form of the buffer is the model's choice (log 7). -/
def Obligations.InvariantKept : Prop := ∀ s t : State, Inv s → step s = .next t → Inv t

/-- The state after reset meets the invariant (10 sections 10 and 11); that the buffer lists nothing there is the model's
choice (log 7). -/
def Obligations.InvariantAtReset : Prop := Inv State.reset

/-- No step writes the configuration or the segment table (10 section 8), and a clock step takes exactly one entry of the
input list (the model's form of 10 section 9: log 1). -/
def Obligations.ConfigurationNeverWritten : Prop :=
  ∀ s t : State, step s = .next t → t.cfg = s.cfg ∧ t.segTable = s.segTable ∧ t.inputs = s.inputs.tail

/-- What FR and HI do in a step depends only on their registers, the received byte, the segment table and the activity
policy: two states that agree on these, whatever their clocks, schedulers and transmitters, give the same
FR and HI registers and the same FR and HI events (10 section 1, the registers of each unit, and section 9, the
order of the units; 41 sections 1 and 2; 42 sections 1 to 3). -/
def Obligations.ReceptionIsIndependent : Prop :=
  ∀ (s₁ s₂ : State) (i₁ i₂ : Input) (r₁ r₂ : List Input),
    s₁.inputs = i₁ :: r₁ → s₂.inputs = i₂ :: r₂ → i₁.rst = false → i₂.rst = false →
    i₁.rxValid = i₂.rxValid → i₁.rxData = i₂.rxData →
    s₁.fr = s₂.fr → s₁.hi = s₂.hi → s₁.segTable = s₂.segTable →
    s₁.cfg.activityPolicy = s₂.cfg.activityPolicy →
    ∃ t₁ t₂, step s₁ = .next t₁ ∧ step s₂ = .next t₂ ∧
      t₁.fr = t₂.fr ∧ t₁.hi = t₂.hi ∧
      t₁.out.frEvt = t₂.out.frEvt ∧ t₁.out.pkt = t₂.out.pkt ∧ t₁.out.hiEvt = t₂.out.hiEvt ∧
      t₁.out.activity = t₂.out.activity ∧ t₁.out.pub = t₂.out.pub ∧
      t₁.wires.reading = t₂.wires.reading

/-- Canonical buffers that read the same at every address are the same data (log 7). -/
def Obligations.CanonicalBuffersAgree : Prop :=
  ∀ m m' : Memory, Memory.wf m → Memory.wf m' → (∀ a, readByte m a = readByte m' a) → m = m'

/-- The level outputs, as functions of the state at the start of a step (10 R37). -/
def Obligations.LevelOutputs : Prop :=
  ∀ (rst : Bool) (s : State),
    (levels rst s).txValid = (s.tx.txBusy && !rst) ∧
    (s.tx.txBusy = true → (levels rst s).txData = cmdRom s.tx.txSel s.tx.txIdx) ∧
    (levels rst s).pollState = s.ps.psState ∧ (levels rst s).heightValid = s.hi.curHeightValid ∧
    (levels rst s).heightX10 = s.hi.curHeight

/-- The numeric codes of `fr_evt`, `hi_evt`, `ps_evt` and `ps_state` (10 sections 6 and 9). -/
def Obligations.EventCodes : Prop :=
  [FrEvt.none, .packet, .badEnd, .overflow, .badLength].map (fun e => (frEvtCode e).toNat) =
    [0, 1, 2, 3, 4] ∧
  [HiEvt.none, .heartbeat, .other, .allBlank, .invalidDigit, .allZero, .minus, .nonnumeric,
    .reading].map (fun e => (hiEvtCode e).toNat) = [0, 1, 2, 3, 4, 5, 6, 7, 8] ∧
  [PsEvt.none, .bootToIdle, .idlePoll, .idleToActive, .activePoll, .activeToIdle].map
    (fun e => (psEvtCode e).toNat) = [0, 1, 2, 3, 4, 5] ∧
  [PsState.bootWait, .idle, .active].map (fun p => (psStateCode p).toNat) = [0, 1, 2]

/-- With no input left to take, the clock stands still and the whole state is kept (20 section 5 and 60 section 8; that an
empty input list stands for a stopped clock is the model's choice, log 1). -/
def Obligations.StoppedClockKeepsState : Prop := ∀ s : State, s.inputs = [] → step s = .next s

/-! ### Runs -/

/-- From scanning, the bytes of a frame that is not yet complete are held in the buffer in arrival order, the cursor
counting them, whatever steps without a byte lie between them (10 section 2; 20 section 2; 41 section 2). -/
def Obligations.FrameBytesAreHeld : Prop :=
  ∀ (inps rest : List Input) (s : State) (start len : Byte) (body : List Byte),
    s.inputs = inps ++ rest → NoReset inps → s.fr.cursor = 0#5 → Memory.wf s.fr.buf →
    start = 0x9B#8 ∨ start = 0x98#8 → received inps = start :: len :: body →
    body.length < len.toNat → body.length + 2 < 32 →
    ∃ t, Host.Core.run core inps.length s = .next t ∧
      t.fr.cursor.toNat = body.length + 2 ∧ t.inputs = rest ∧
      ∀ i, i < body.length + 2 → readByte t.fr.buf i = (start :: len :: body).getD i 0#8

/-- From scanning, a start byte, a length byte `L` from 2 to 30, a type, `L - 2` payload bytes and 0x9D give, in the step
of the last byte, the Packet of exactly these bytes, and FR is scanning again (41 section 3: the framing
property from right to left; 90 C2). -/
def Obligations.WholeFrameGivesPacket : Prop :=
  ∀ (inps rest : List Input) (last : Input) (s : State) (start len type : Byte) (payload : List Byte),
    s.inputs = inps ++ last :: rest → NoReset inps → last.rst = false →
    s.fr.cursor = 0#5 → Memory.wf s.fr.buf → start = 0x9B#8 ∨ start = 0x98#8 →
    received inps = start :: len :: type :: payload → payload.length + 2 = len.toNat → len.toNat ≤ 30 →
    last.rxValid = true → last.rxData = 0x9D#8 →
    ∃ t, Host.Core.run core (inps.length + 1) s = .next t ∧
      t.fr.cursor = 0#5 ∧ t.out.frEvt = .packet ∧
      t.out.pkt = some { start, length := len, type, payload, endByte := 0x9D#8 }

/-- From scanning, a frame whose length byte is 31 or more overflows at its 32nd byte, whatever that byte is: OVERFLOW,
no Packet, and FR is scanning again (41 section 2). -/
def Obligations.LongFrameOverflows : Prop :=
  ∀ (inps rest : List Input) (last : Input) (s : State) (start len : Byte) (body : List Byte),
    s.inputs = inps ++ last :: rest → NoReset inps → last.rst = false →
    s.fr.cursor = 0#5 → Memory.wf s.fr.buf → start = 0x9B#8 ∨ start = 0x98#8 →
    received inps = start :: len :: body → body.length = 29 → 31 ≤ len.toNat →
    last.rxValid = true →
    ∃ t, Host.Core.run core (inps.length + 1) s = .next t ∧
      t.fr.cursor = 0#5 ∧ t.out.frEvt = .overflow ∧ t.out.pkt = none

/-- The round trip of 95 L1-P3: under every legal segment table, a height frame that encodes the digits `x y z`, not all
0, with the decimal flag `f` on the tens digit, comes out as the reading of 100x + 10y + z tenths with the
flag, ten times that without, and becomes the tracked height; the reserved bytes and the other decimal
points make no difference (42 section 2). -/
def Obligations.DigitsRoundTrip : Prop :=
  ∀ (inps rest : List Input) (last : Input) (s : State) (start r3 r4 : Byte) (x y z : Fin 10)
    (f f₁ f₂ : Bool),
    s.inputs = inps ++ last :: rest → NoReset inps → last.rst = false →
    s.fr.cursor = 0#5 → Memory.wf s.fr.buf → s.segTable.wf → start = 0x9B#8 ∨ start = 0x98#8 →
    received inps =
      [start, 7#8, 0x12#8, digitByte f₁ (digitPattern s.segTable x),
        digitByte f (digitPattern s.segTable y), digitByte f₂ (digitPattern s.segTable z), r3, r4] →
    last.rxValid = true → last.rxData = 0x9D#8 → ¬(x = 0 ∧ y = 0 ∧ z = 0) →
    ∃ (t : State) (v : Height), Host.Core.run core (inps.length + 1) s = .next t ∧
      v.toNat = (if f then 100 * x.val + 10 * y.val + z.val
                 else 10 * (100 * x.val + 10 * y.val + z.val)) ∧
      t.out.hiEvt = .reading ∧ t.wires.reading.map Reading.value = some v ∧
      t.hi.curHeight = v ∧ t.hi.curHeightValid = true
end

