-- ==== Sys2Proof/Laws/Memory.lean ====
section
/-! SUPPORT. The FR buffer: reading after writing, and the canonical form that every write keeps. -/

namespace Sys2Proof.Machine

@[simp] theorem readByte_nil (a : Nat) : readByte [] a = Config.unwrittenByte := rfl

theorem readByte_cons (k : Nat) (b : Byte) (m : Memory) (a : Nat) :
    readByte ((k, b) :: m) a = if k = a then b else readByte m a := rfl

/-- Below every listed address nothing is listed. -/
theorem readByte_of_all_above {m : Memory} {a : Nat} (h : ∀ c ∈ m, a < c.1) :
    readByte m a = Config.unwrittenByte := by
  induction m with
  | nil => rfl
  | cons c m ih =>
    obtain ⟨k, b⟩ := c
    have hk : a < k := h (k, b) (by simp)
    rw [readByte_cons, if_neg (by omega)]
    exact ih fun c hc => h c (by simp [hc])

/-- The tail of a canonical buffer is canonical, and lies above its head. -/
theorem Memory.wf_tail {c : Host.Cell} {m : Memory} (h : Memory.wf (c :: m)) :
    Memory.wf m ∧ ∀ d ∈ m, c.1 < d.1 := by
  obtain ⟨hp, hv⟩ := h
  rw [List.pairwise_cons] at hp
  exact ⟨⟨hp.2, fun d hd => hv d (by simp [hd])⟩, hp.1⟩

/-- A canonical buffer with a cell in front of it, below all its addresses, is canonical. -/
theorem Memory.wf_cons {c : Host.Cell} {m : Memory} (hm : Memory.wf m) (hlt : ∀ d ∈ m, c.1 < d.1)
    (hc : c.1 < Config.bufCap) (hb : c.2 ≠ Config.unwrittenByte) : Memory.wf (c :: m) := by
  refine ⟨List.pairwise_cons.mpr ⟨hlt, hm.1⟩, fun d hd => ?_⟩
  rcases List.mem_cons.mp hd with rfl | hd
  · exact ⟨hc, hb⟩
  · exact hm.2 d hd

theorem mem_consByte {a : Nat} {b : Byte} {m : Memory} {d : Host.Cell} (h : d ∈ consByte a b m) :
    d.1 = a ∨ d ∈ m := by
  unfold consByte at h
  split at h
  · exact .inr h
  · rcases List.mem_cons.mp h with rfl | h
    · exact .inl rfl
    · exact .inr h

theorem wf_consByte {a : Nat} {b : Byte} {m : Memory} (hm : Memory.wf m) (hlt : ∀ d ∈ m, a < d.1)
    (ha : a < Config.bufCap) : Memory.wf (consByte a b m) := by
  unfold consByte
  split
  · exact hm
  · exact Memory.wf_cons hm hlt ha ‹_›

/-- A write adds no address but its own. -/
theorem mem_writeByte {m : Memory} {a : Nat} {b : Byte} {d : Host.Cell} (h : d ∈ writeByte m a b) :
    d.1 = a ∨ d ∈ m := by
  induction m with
  | nil => exact mem_consByte h
  | cons c m ih =>
    obtain ⟨k, v⟩ := c
    unfold writeByte at h
    split at h
    · exact mem_consByte h
    · split at h
      · exact (mem_consByte h).imp id fun h => by simp [h]
      · rcases List.mem_cons.mp h with rfl | h
        · exact .inr (by simp)
        · exact (ih h).imp id fun h => by simp [h]

/-- Every write to an address of the buffer keeps the canonical form. -/
theorem wf_writeByte {m : Memory} {a : Nat} (b : Byte) (hm : Memory.wf m) (ha : a < Config.bufCap) :
    Memory.wf (writeByte m a b) := by
  induction m with
  | nil => exact wf_consByte hm (by simp) ha
  | cons c m ih =>
    obtain ⟨k, v⟩ := c
    obtain ⟨ht, hlt⟩ := Memory.wf_tail hm
    unfold writeByte
    split
    · refine wf_consByte hm (fun d hd => ?_) ha
      rcases List.mem_cons.mp hd with rfl | hd
      · assumption
      · have := hlt d hd
        simp only at this
        omega
    · split
      · exact wf_consByte ht (fun d hd => by have := hlt d hd; simp only at this; omega) ha
      · refine Memory.wf_cons (ih ht) (fun d hd => ?_) (hm.2 (k, v) (by simp)).1 (hm.2 (k, v) (by simp)).2
        rcases mem_writeByte hd with h | h
        · simp only [h]; omega
        · exact hlt d h

theorem readByte_consByte_same {a : Nat} {b : Byte} {m : Memory} (hlt : ∀ d ∈ m, a < d.1) :
    readByte (consByte a b m) a = b := by
  unfold consByte
  split
  · rw [readByte_of_all_above hlt]; exact (‹b = _›).symm
  · simp [readByte_cons]

theorem readByte_consByte_other {a x : Nat} {b : Byte} {m : Memory} (h : x ≠ a) :
    readByte (consByte a b m) x = readByte m x := by
  unfold consByte
  split
  · rfl
  · rw [readByte_cons, if_neg (Ne.symm h)]

/-- A byte written to a canonical buffer is read back. -/
theorem readByte_writeByte_same {m : Memory} (a : Nat) (b : Byte) (hm : Memory.wf m) :
    readByte (writeByte m a b) a = b := by
  induction m with
  | nil => exact readByte_consByte_same (by simp)
  | cons c m ih =>
    obtain ⟨k, v⟩ := c
    obtain ⟨ht, hlt⟩ := Memory.wf_tail hm
    unfold writeByte
    split
    · refine readByte_consByte_same fun d hd => ?_
      rcases List.mem_cons.mp hd with rfl | hd
      · assumption
      · have := hlt d hd
        simp only at this
        omega
    · split
      · exact readByte_consByte_same fun d hd => by have := hlt d hd; simp only at this; omega
      · rw [readByte_cons, if_neg (by omega)]
        exact ih ht

/-- A write leaves every other address as it was. -/
theorem readByte_writeByte_other {m : Memory} {a x : Nat} (b : Byte) (h : x ≠ a) :
    readByte (writeByte m a b) x = readByte m x := by
  induction m with
  | nil => rw [writeByte, readByte_consByte_other h]
  | cons c m ih =>
    obtain ⟨k, v⟩ := c
    unfold writeByte
    split
    · rw [readByte_consByte_other h]
    · split
      · rw [readByte_consByte_other h, readByte_cons, if_neg (by omega)]
      · rw [readByte_cons, readByte_cons, ih]

end Sys2Proof.Machine
end

