-- ==== Sys2Proof/Laws/State.lean ====
section
/-! SUPPORT. One lemma per field per update of a part of the state, each true by unfolding. -/

namespace Sys2Proof.Machine

section
variable (s : State) (r : FrRegs)
@[simp] theorem withFr_fr : (s.withFr r).fr = r := rfl
@[simp] theorem withFr_hi : (s.withFr r).hi = s.hi := rfl
@[simp] theorem withFr_ps : (s.withFr r).ps = s.ps := rfl
@[simp] theorem withFr_tx : (s.withFr r).tx = s.tx := rfl
@[simp] theorem withFr_cfg : (s.withFr r).cfg = s.cfg := rfl
@[simp] theorem withFr_segTable : (s.withFr r).segTable = s.segTable := rfl
@[simp] theorem withFr_inputs : (s.withFr r).inputs = s.inputs := rfl
@[simp] theorem withFr_out : (s.withFr r).out = s.out := rfl
@[simp] theorem withFr_wires : (s.withFr r).wires = s.wires := rfl
@[simp] theorem withFr_tick : (s.withFr r).tick = s.tick := rfl
end

section
variable (s : State) (r : HiRegs)
@[simp] theorem withHi_fr : (s.withHi r).fr = s.fr := rfl
@[simp] theorem withHi_hi : (s.withHi r).hi = r := rfl
@[simp] theorem withHi_ps : (s.withHi r).ps = s.ps := rfl
@[simp] theorem withHi_tx : (s.withHi r).tx = s.tx := rfl
@[simp] theorem withHi_cfg : (s.withHi r).cfg = s.cfg := rfl
@[simp] theorem withHi_segTable : (s.withHi r).segTable = s.segTable := rfl
@[simp] theorem withHi_inputs : (s.withHi r).inputs = s.inputs := rfl
@[simp] theorem withHi_out : (s.withHi r).out = s.out := rfl
@[simp] theorem withHi_wires : (s.withHi r).wires = s.wires := rfl
@[simp] theorem withHi_tick : (s.withHi r).tick = s.tick := rfl
end

section
variable (s : State) (r : PsRegs)
@[simp] theorem withPs_fr : (s.withPs r).fr = s.fr := rfl
@[simp] theorem withPs_hi : (s.withPs r).hi = s.hi := rfl
@[simp] theorem withPs_ps : (s.withPs r).ps = r := rfl
@[simp] theorem withPs_tx : (s.withPs r).tx = s.tx := rfl
@[simp] theorem withPs_cfg : (s.withPs r).cfg = s.cfg := rfl
@[simp] theorem withPs_segTable : (s.withPs r).segTable = s.segTable := rfl
@[simp] theorem withPs_inputs : (s.withPs r).inputs = s.inputs := rfl
@[simp] theorem withPs_out : (s.withPs r).out = s.out := rfl
@[simp] theorem withPs_wires : (s.withPs r).wires = s.wires := rfl
@[simp] theorem withPs_tick : (s.withPs r).tick = s.tick := rfl
end

section
variable (s : State) (r : TxRegs)
@[simp] theorem withTx_fr : (s.withTx r).fr = s.fr := rfl
@[simp] theorem withTx_hi : (s.withTx r).hi = s.hi := rfl
@[simp] theorem withTx_ps : (s.withTx r).ps = s.ps := rfl
@[simp] theorem withTx_tx : (s.withTx r).tx = r := rfl
@[simp] theorem withTx_cfg : (s.withTx r).cfg = s.cfg := rfl
@[simp] theorem withTx_segTable : (s.withTx r).segTable = s.segTable := rfl
@[simp] theorem withTx_inputs : (s.withTx r).inputs = s.inputs := rfl
@[simp] theorem withTx_out : (s.withTx r).out = s.out := rfl
@[simp] theorem withTx_wires : (s.withTx r).wires = s.wires := rfl
@[simp] theorem withTx_tick : (s.withTx r).tick = s.tick := rfl
end

section
variable (s : State) (r : Out)
@[simp] theorem withOut_fr : (s.withOut r).fr = s.fr := rfl
@[simp] theorem withOut_hi : (s.withOut r).hi = s.hi := rfl
@[simp] theorem withOut_ps : (s.withOut r).ps = s.ps := rfl
@[simp] theorem withOut_tx : (s.withOut r).tx = s.tx := rfl
@[simp] theorem withOut_cfg : (s.withOut r).cfg = s.cfg := rfl
@[simp] theorem withOut_segTable : (s.withOut r).segTable = s.segTable := rfl
@[simp] theorem withOut_inputs : (s.withOut r).inputs = s.inputs := rfl
@[simp] theorem withOut_out : (s.withOut r).out = r := rfl
@[simp] theorem withOut_wires : (s.withOut r).wires = s.wires := rfl
@[simp] theorem withOut_tick : (s.withOut r).tick = s.tick := rfl
end

section
variable (s : State) (r : Wires)
@[simp] theorem withWires_fr : (s.withWires r).fr = s.fr := rfl
@[simp] theorem withWires_hi : (s.withWires r).hi = s.hi := rfl
@[simp] theorem withWires_ps : (s.withWires r).ps = s.ps := rfl
@[simp] theorem withWires_tx : (s.withWires r).tx = s.tx := rfl
@[simp] theorem withWires_cfg : (s.withWires r).cfg = s.cfg := rfl
@[simp] theorem withWires_segTable : (s.withWires r).segTable = s.segTable := rfl
@[simp] theorem withWires_inputs : (s.withWires r).inputs = s.inputs := rfl
@[simp] theorem withWires_out : (s.withWires r).out = s.out := rfl
@[simp] theorem withWires_wires : (s.withWires r).wires = r := rfl
@[simp] theorem withWires_tick : (s.withWires r).tick = s.tick := rfl
end

/-! ### What the named updates leave -/

section
variable (s : State)
@[simp] theorem setFrEvt_fr (e : FrEvt) : (setFrEvt e s).fr = s.fr := rfl
@[simp] theorem setFrEvt_hi (e : FrEvt) : (setFrEvt e s).hi = s.hi := rfl
@[simp] theorem setFrEvt_ps (e : FrEvt) : (setFrEvt e s).ps = s.ps := rfl
@[simp] theorem setFrEvt_tx (e : FrEvt) : (setFrEvt e s).tx = s.tx := rfl
@[simp] theorem setFrEvt_cfg (e : FrEvt) : (setFrEvt e s).cfg = s.cfg := rfl
@[simp] theorem setFrEvt_segTable (e : FrEvt) : (setFrEvt e s).segTable = s.segTable := rfl
@[simp] theorem setFrEvt_inputs (e : FrEvt) : (setFrEvt e s).inputs = s.inputs := rfl
@[simp] theorem setFrEvt_out (e : FrEvt) : (setFrEvt e s).out = { s.out with frEvt := e } := rfl
@[simp] theorem setFrEvt_wires (e : FrEvt) : (setFrEvt e s).wires = s.wires := rfl
@[simp] theorem setFrEvt_tick (e : FrEvt) : (setFrEvt e s).tick = s.tick := rfl
@[simp] theorem setCursor_fr (c : Cursor) : (setCursor c s).fr = { s.fr with cursor := c } := rfl
@[simp] theorem setCursor_hi (c : Cursor) : (setCursor c s).hi = s.hi := rfl
@[simp] theorem setCursor_ps (c : Cursor) : (setCursor c s).ps = s.ps := rfl
@[simp] theorem setCursor_tx (c : Cursor) : (setCursor c s).tx = s.tx := rfl
@[simp] theorem setCursor_cfg (c : Cursor) : (setCursor c s).cfg = s.cfg := rfl
@[simp] theorem setCursor_segTable (c : Cursor) : (setCursor c s).segTable = s.segTable := rfl
@[simp] theorem setCursor_inputs (c : Cursor) : (setCursor c s).inputs = s.inputs := rfl
@[simp] theorem setCursor_out (c : Cursor) : (setCursor c s).out = s.out := rfl
@[simp] theorem setCursor_wires (c : Cursor) : (setCursor c s).wires = s.wires := rfl
@[simp] theorem setCursor_tick (c : Cursor) : (setCursor c s).tick = s.tick := rfl
@[simp] theorem setBuf_fr (a : Nat) (b : Byte) : (setBuf a b s).fr = { s.fr with buf := writeByte s.fr.buf a b } := rfl
@[simp] theorem setBuf_hi (a : Nat) (b : Byte) : (setBuf a b s).hi = s.hi := rfl
@[simp] theorem setBuf_ps (a : Nat) (b : Byte) : (setBuf a b s).ps = s.ps := rfl
@[simp] theorem setBuf_tx (a : Nat) (b : Byte) : (setBuf a b s).tx = s.tx := rfl
@[simp] theorem setBuf_cfg (a : Nat) (b : Byte) : (setBuf a b s).cfg = s.cfg := rfl
@[simp] theorem setBuf_segTable (a : Nat) (b : Byte) : (setBuf a b s).segTable = s.segTable := rfl
@[simp] theorem setBuf_inputs (a : Nat) (b : Byte) : (setBuf a b s).inputs = s.inputs := rfl
@[simp] theorem setBuf_out (a : Nat) (b : Byte) : (setBuf a b s).out = s.out := rfl
@[simp] theorem setBuf_wires (a : Nat) (b : Byte) : (setBuf a b s).wires = s.wires := rfl
@[simp] theorem setBuf_tick (a : Nat) (b : Byte) : (setBuf a b s).tick = s.tick := rfl
@[simp] theorem setHiEvt_fr (e : HiEvt) : (setHiEvt e s).fr = s.fr := rfl
@[simp] theorem setHiEvt_hi (e : HiEvt) : (setHiEvt e s).hi = s.hi := rfl
@[simp] theorem setHiEvt_ps (e : HiEvt) : (setHiEvt e s).ps = s.ps := rfl
@[simp] theorem setHiEvt_tx (e : HiEvt) : (setHiEvt e s).tx = s.tx := rfl
@[simp] theorem setHiEvt_cfg (e : HiEvt) : (setHiEvt e s).cfg = s.cfg := rfl
@[simp] theorem setHiEvt_segTable (e : HiEvt) : (setHiEvt e s).segTable = s.segTable := rfl
@[simp] theorem setHiEvt_inputs (e : HiEvt) : (setHiEvt e s).inputs = s.inputs := rfl
@[simp] theorem setHiEvt_out (e : HiEvt) : (setHiEvt e s).out = { s.out with hiEvt := e } := rfl
@[simp] theorem setHiEvt_wires (e : HiEvt) : (setHiEvt e s).wires = s.wires := rfl
@[simp] theorem setHiEvt_tick (e : HiEvt) : (setHiEvt e s).tick = s.tick := rfl
@[simp] theorem accept_fr (v : Variant) : (accept v s).fr = s.fr := rfl
@[simp] theorem accept_hi (v : Variant) : (accept v s).hi = s.hi := rfl
@[simp] theorem accept_ps (v : Variant) : (accept v s).ps = s.ps := rfl
@[simp] theorem accept_tx (v : Variant) : (accept v s).tx = { txBusy := true, txSel := v, txIdx := 0#3 } := rfl
@[simp] theorem accept_cfg (v : Variant) : (accept v s).cfg = s.cfg := rfl
@[simp] theorem accept_segTable (v : Variant) : (accept v s).segTable = s.segTable := rfl
@[simp] theorem accept_inputs (v : Variant) : (accept v s).inputs = s.inputs := rfl
@[simp] theorem accept_out (v : Variant) : (accept v s).out = s.out := rfl
@[simp] theorem accept_wires (v : Variant) : (accept v s).wires = s.wires := rfl
@[simp] theorem accept_tick (v : Variant) : (accept v s).tick = s.tick := rfl
@[simp] theorem beginStep_fr : (beginStep s).fr = s.fr := rfl
@[simp] theorem beginStep_hi : (beginStep s).hi = s.hi := rfl
@[simp] theorem beginStep_ps : (beginStep s).ps = s.ps := rfl
@[simp] theorem beginStep_tx : (beginStep s).tx = s.tx := rfl
@[simp] theorem beginStep_cfg : (beginStep s).cfg = s.cfg := rfl
@[simp] theorem beginStep_segTable : (beginStep s).segTable = s.segTable := rfl
@[simp] theorem beginStep_inputs : (beginStep s).inputs = s.inputs := rfl
@[simp] theorem beginStep_out : (beginStep s).out = Out.quiet := rfl
@[simp] theorem beginStep_wires : (beginStep s).wires = { s.wires with reading := none, txSent := none } := rfl
@[simp] theorem beginStep_tick : (beginStep s).tick = s.tick + 1 := rfl
end

end Sys2Proof.Machine
end

