-- ==== Sys2Proof/Laws/Ops.lean ====
section
/-! SUPPORT. For each shared operation one lemma that says what it can do; proofs cite these and do not unfold
the operation. -/

namespace Sys2Proof.Machine

/-! ### Outcomes -/

@[simp] theorem andThen_next (s : State) (f : State → Outcome) : andThen (.next s) f = f s := rfl

/-- A sequence answers a next state exactly when both parts do. -/
theorem andThen_eq_next {o : Outcome} {f : State → Outcome} {t : State} :
    andThen o f = .next t ↔ ∃ s, o = .next s ∧ f s = .next t := by
  cases o <;> simp [andThen]

/-! ### Operands -/

theorem expectedLength_toNat (len : Byte) : (expectedLength len).toNat = len.toNat + 2 := by
  unfold expectedLength
  have := len.isLt
  rw [BitVec.toNat_add, BitVec.toNat_setWidth]
  simp only [BitVec.toNat_ofNat]
  omega

theorem countAfter_eq (c : Cursor) : countAfter c = c.toNat + 1 := rfl

/-- A cursor that is not at its last value advances by one. -/
theorem cursor_advance_toNat {c : Cursor} (h : countAfter c ≠ Config.bufCap) :
    (BitVec.ofNat 5 (countAfter c)).toNat = c.toNat + 1 := by
  have := c.isLt
  simp only [countAfter, Config.bufCap] at h ⊢
  rw [BitVec.toNat_ofNat]
  omega

/-! ### FR -/

section
variable (s : State) (b : Byte) (e : FrEvt)

@[simp] theorem frameError_fr : (frameError e s).fr = { s.fr with cursor := 0#5 } := rfl
@[simp] theorem frameError_hi : (frameError e s).hi = s.hi := rfl
@[simp] theorem frameError_ps : (frameError e s).ps = s.ps := rfl
@[simp] theorem frameError_tx : (frameError e s).tx = s.tx := rfl
@[simp] theorem frameError_cfg : (frameError e s).cfg = s.cfg := rfl
@[simp] theorem frameError_segTable : (frameError e s).segTable = s.segTable := rfl
@[simp] theorem frameError_inputs : (frameError e s).inputs = s.inputs := rfl
@[simp] theorem frameError_out : (frameError e s).out = { s.out with frEvt := e } := rfl
@[simp] theorem frameError_wires : (frameError e s).wires = s.wires := rfl
@[simp] theorem frameError_tick : (frameError e s).tick = s.tick := rfl

/-- What an append that completes no frame can do: overflow at the last byte of the buffer, or advance. -/
theorem accumulate_cases :
    (s.fr.cursor.toNat = 31 ∧
      accumulate b s = frameError .overflow (setBuf s.fr.cursor.toNat b s)) ∨
    (s.fr.cursor.toNat < 31 ∧
      accumulate b s =
        setFrEvt .none (setCursor (BitVec.ofNat 5 (s.fr.cursor.toNat + 1)) (setBuf s.fr.cursor.toNat b s))) := by
  have := s.fr.cursor.isLt
  unfold accumulate
  split
  · exact .inl ⟨by simp only [countAfter, Config.bufCap] at *; omega, rfl⟩
  · exact .inr ⟨by simp only [countAfter, Config.bufCap] at *; omega, rfl⟩

/-- What a frame with the right end byte can come to. -/
theorem completeFrame_cases :
    ((lengthByte s.fr.buf).toNat < 2 ∧ completeFrame s = .next (frameError .badLength s)) ∨
    (2 ≤ (lengthByte s.fr.buf).toNat ∧ (lengthByte s.fr.buf).toNat ≤ 30 ∧
      completeFrame s = .next (deliver (packetOf s.fr.buf) s)) ∨
    (30 < (lengthByte s.fr.buf).toNat ∧ completeFrame s = .fault .bufferAddress) := by
  unfold completeFrame
  rw [expectedLength_toNat]
  simp only [Config.bufCap]
  by_cases h1 : (lengthByte s.fr.buf).toNat < 2
  · exact .inl ⟨h1, if_pos h1⟩
  · by_cases h2 : (lengthByte s.fr.buf).toNat + 2 ≤ 32
    · exact .inr (.inl ⟨by omega, by omega, by rw [if_neg h1, if_pos h2]⟩)
    · exact .inr (.inr ⟨by omega, by rw [if_neg h1, if_neg h2]⟩)

end

/-! ### DG -/

/-- DG shows the entry of `SegRom` and the decimal-point flag of the byte at the port. -/
theorem readDigit_eq (port : Port) (b : Byte) (s : State) :
    readDigit port b s =
      .next (setPort port (DgOut.mk (segRom s.segTable (patternOf b)) (hasDecimal b)) s) := by
  unfold readDigit
  split <;> (rename_i h; rw [h]; rfl)

section
variable (port : Port) (g : DgOut) (s : State)

@[simp] theorem setPort_fr : (setPort port g s).fr = s.fr := by cases port <;> rfl
@[simp] theorem setPort_hi : (setPort port g s).hi = s.hi := by cases port <;> rfl
@[simp] theorem setPort_ps : (setPort port g s).ps = s.ps := by cases port <;> rfl
@[simp] theorem setPort_tx : (setPort port g s).tx = s.tx := by cases port <;> rfl
@[simp] theorem setPort_cfg : (setPort port g s).cfg = s.cfg := by cases port <;> rfl
@[simp] theorem setPort_segTable : (setPort port g s).segTable = s.segTable := by cases port <;> rfl
@[simp] theorem setPort_inputs : (setPort port g s).inputs = s.inputs := by cases port <;> rfl
@[simp] theorem setPort_out : (setPort port g s).out = s.out := by cases port <;> rfl
@[simp] theorem setPort_tick : (setPort port g s).tick = s.tick := by cases port <;> rfl

end

/-- The state in which DG shows the three digits of a height broadcast. -/
def withDigits (h t o : Byte) (s : State) : State :=
  s.withWires
    { s.wires with
      dgHundreds := DgOut.mk (segRom s.segTable (patternOf h)) (hasDecimal h)
      dgTens := DgOut.mk (segRom s.segTable (patternOf t)) (hasDecimal t)
      dgOnes := DgOut.mk (segRom s.segTable (patternOf o)) (hasDecimal o) }

/-- MSG_HEIGHT shows the three digits and applies what HI makes of them. -/
theorem execMsgHeight_eq (h t o r3 r4 : Byte) (s : State) :
    execMsgHeight h t o r3 r4 s =
      .next
        (applyHeight
          (judgeHeight (segRom s.segTable (patternOf h)) (segRom s.segTable (patternOf t))
            (segRom s.segTable (patternOf o)) (hasDecimal t))
          (withDigits h t o s)) := by
  unfold execMsgHeight
  simp only [readDigit_eq, andThen_next]
  rfl

/-! ### HI -/

section
variable (v : Height) (s : State)

@[simp] theorem commitReading_fr : (commitReading v s).fr = s.fr := rfl
@[simp] theorem commitReading_ps : (commitReading v s).ps = s.ps := rfl
@[simp] theorem commitReading_tx : (commitReading v s).tx = s.tx := rfl
@[simp] theorem commitReading_cfg : (commitReading v s).cfg = s.cfg := rfl
@[simp] theorem commitReading_segTable : (commitReading v s).segTable = s.segTable := rfl
@[simp] theorem commitReading_inputs : (commitReading v s).inputs = s.inputs := rfl
@[simp] theorem commitReading_tick : (commitReading v s).tick = s.tick := rfl
@[simp] theorem commitReading_hi : (commitReading v s).hi = committedHi s.hi v := rfl
@[simp] theorem commitReading_out :
    (commitReading v s).out = readingOut s.out s.cfg.activityPolicy s.hi v := rfl
@[simp] theorem commitReading_wires :
    (commitReading v s).wires =
      { s.wires with reading := some (Reading.mk v (changedFlag s.hi v)) } := rfl

end

/-- The value of a reading fits its 14 bits. -/
theorem readingValue_toNat (h t o : Fin 10) (d : Bool) :
    (readingValue (rawHeight h t o) d).toNat = if d then rawHeight h t o else 10 * rawHeight h t o := by
  have := h.isLt; have := t.isLt; have := o.isLt
  cases d <;> simp only [readingValue, rawHeight, BitVec.toNat_ofNat] <;> simp <;> omega

/-- When three digits give a reading, they are numeric and not all zero, and none of the ignore steps
applies. -/
theorem judgeDigits_reading {dh dt dO : Digit} {d : Bool} {v : Height}
    (hj : judgeDigits dh dt dO d = .reading v) :
    ∃ h t o : Fin 10, dh = .num h ∧ dt = .num t ∧ dO = .num o ∧ 0 < rawHeight h t o ∧
      v = readingValue (rawHeight h t o) d := by
  unfold judgeDigits at hj
  split at hj
  · cases hj
  split at hj
  · cases hj
  split at hj
  · cases hj
  rename_i hz _
  split at hj
  · rename_i h t o hh ht ho
    have hnum : ∀ {x : Digit} {n : Fin 10}, digitValue x = some n → x = .num n := by
      intro x n hx; cases x <;> simp [digitValue] at hx; rw [hx]
    refine ⟨h, t, o, hnum hh, hnum ht, hnum ho, ?_, ?_⟩
    · rw [hnum hh, hnum ht, hnum ho] at hz
      by_contra hc
      apply hz
      have h0 : h.val = 0 ∧ t.val = 0 ∧ o.val = 0 := by unfold rawHeight at hc; omega
      exact ⟨congrArg _ (Fin.ext h0.1), congrArg _ (Fin.ext h0.2.1), congrArg _ (Fin.ext h0.2.2)⟩
    · cases hj; rfl
  · cases hj

/-- A height broadcast's digits give a reading only where the judged digits do. -/
theorem judgeHeight_reading {dh dt dO : Digit} {d : Bool} {v : Height}
    (hj : judgeHeight dh dt dO d = .reading v) : judgeDigits (blankHundreds dh) dt dO d = .reading v := by
  unfold judgeHeight at hj
  split at hj
  · cases hj
  · exact hj

/-- A reading is from 1 to 9990. -/
theorem judgeHeight_range {dh dt dO : Digit} {d : Bool} {v : Height}
    (hj : judgeHeight dh dt dO d = .reading v) : 1 ≤ v.toNat ∧ v.toNat ≤ 9990 := by
  obtain ⟨h, t, o, -, -, -, hpos, rfl⟩ := judgeDigits_reading (judgeHeight_reading hj)
  rw [readingValue_toNat]
  have := h.isLt; have := t.isLt; have := o.isLt
  unfold rawHeight at *
  split <;> omega

/-! ### PS and TX -/

/-- What the activity update can do. -/
theorem activityUpdate_eq (n : Time) (s : State) :
    activityUpdate n s =
      s.withPs { s.ps with lastActivityTime := if s.out.activity then n else s.ps.lastActivityTime } := by
  unfold activityUpdate
  split
  · rfl
  · rfl

/-- What PS can do in a step: nothing, a move without a command, or a poll; the last only while TX is free. -/
theorem transition_cases (n : Time) (s : State) :
    transition n s = s ∨
    (s.ps.psState = .idle ∧ readingChanged s = true ∧ transition n s = moveTo .active .idleToActive s) ∨
    (s.ps.psState = .active ∧ transition n s = moveTo .idle .activeToIdle s) ∨
    (s.tx.txBusy = false ∧ ∃ p v e, p ≠ PsState.bootWait ∧ transition n s = poll p n v e s) := by
  unfold transition
  split <;> rename_i hp
  · unfold bootWaitStep
    split
    · rename_i h
      simp only [Bool.and_eq_true, Bool.not_eq_true'] at h
      exact .inr (.inr (.inr ⟨h.2, _, _, _, by decide, rfl⟩))
    · exact .inl rfl
  · unfold idleStep
    split
    · exact .inr (.inl ⟨hp, ‹_›, rfl⟩)
    · split
      · rename_i h
        simp only [Bool.and_eq_true, Bool.not_eq_true'] at h
        exact .inr (.inr (.inr ⟨h.2, _, _, _, by decide, rfl⟩))
      · exact .inl rfl
  · unfold activeStep
    split
    · exact .inr (.inr (.inl ⟨hp, rfl⟩))
    · split
      · rename_i h
        simp only [Bool.and_eq_true, Bool.not_eq_true'] at h
        exact .inr (.inr (.inr ⟨h.2, _, _, _, by decide, rfl⟩))
      · exact .inl rfl

section
variable (n : Time) (s : State) (p : PsState) (v : Variant) (e : PsEvt)

@[simp] theorem moveTo_fr : (moveTo p e s).fr = s.fr := rfl
@[simp] theorem moveTo_hi : (moveTo p e s).hi = s.hi := rfl
@[simp] theorem moveTo_ps : (moveTo p e s).ps = { s.ps with psState := p } := rfl
@[simp] theorem moveTo_tx : (moveTo p e s).tx = s.tx := rfl
@[simp] theorem moveTo_cfg : (moveTo p e s).cfg = s.cfg := rfl
@[simp] theorem moveTo_segTable : (moveTo p e s).segTable = s.segTable := rfl
@[simp] theorem moveTo_inputs : (moveTo p e s).inputs = s.inputs := rfl
@[simp] theorem moveTo_out : (moveTo p e s).out = { s.out with psEvt := e } := rfl
@[simp] theorem moveTo_wires : (moveTo p e s).wires = s.wires := rfl
@[simp] theorem poll_fr : (poll p n v e s).fr = s.fr := rfl
@[simp] theorem poll_hi : (poll p n v e s).hi = s.hi := rfl
@[simp] theorem poll_ps :
    (poll p n v e s).ps = { s.ps with psState := p, lastPollTime := n } := rfl
@[simp] theorem poll_tx : (poll p n v e s).tx = s.tx := rfl
@[simp] theorem poll_cfg : (poll p n v e s).cfg = s.cfg := rfl
@[simp] theorem poll_segTable : (poll p n v e s).segTable = s.segTable := rfl
@[simp] theorem poll_inputs : (poll p n v e s).inputs = s.inputs := rfl
@[simp] theorem poll_out :
    (poll p n v e s).out = { s.out with psEvt := e, txReq := some v } := rfl
@[simp] theorem poll_wires : (poll p n v e s).wires = s.wires := rfl

/-- What SEND and ADVANCE can do: a transfer with `tx_busy` and `tx_ready` both set, else nothing. -/
theorem advance_cases (r : Bool) :
    (s.tx.txBusy = true ∧ r = true ∧
      advance r s =
        (s.withTx (advancedTx s.tx)).withWires
          { s.wires with txSent := some (cmdRom s.tx.txSel s.tx.txIdx) }) ∨
    ((s.tx.txBusy = false ∨ r = false) ∧ advance r s = s) := by
  unfold advance
  cases s.tx.txBusy <;> cases r <;> simp

/-- TX in a step: SEND and ADVANCE, then the request of the step, if there is one. -/
theorem txPhase_eq (inp : Input) :
    txPhase inp s =
      .next
        (match s.out.txReq with
        | some w => accept w (advance inp.txReady s)
        | none => advance inp.txReady s) := by
  unfold txPhase
  cases s.out.txReq with
  | none => rfl
  | some w => cases w <;> rfl

end

end Sys2Proof.Machine
end

