-- ==== Sys2Proof/Laws/PerInstr.lean ====
section
/-! SUPPORT. The family `EncodedBytes`, one lemma per constructor: how many bytes a well-formed instruction is encoded
in. -/

namespace Sys2Proof.Laws

/-- How many bytes stand in a context: one for a received byte or a digit byte, the type and payload of a Packet of
length byte `L` (`L - 1` bytes, 30 R73), the eight bytes of a command (30 R79). -/
def bytesIn : Context → Nat
  | .frame _ => 1
  | .message len => len.toNat - 1
  | .command => 8
  | .digit _ => 1

/-- A well-formed instruction is encoded in as many bytes as its context takes, under every segment table. -/
def EncodedBytes.Statement (i : Instr) : Prop :=
  ∀ t : SegTable, i.wf t = true → (encode t i).length = bytesIn (contextOf i)

/-- A deliverable payload and its type byte are `L - 1` bytes. -/
theorem deliverable_length {len : Byte} {payload : List Byte} (h : deliverable len payload = true) :
    payload.length + 1 = len.toNat - 1 := by
  simp only [deliverable, decide_eq_true_eq] at h
  omega

theorem EncodedBytes.start9b :
    EncodedBytes.Statement .start9b :=
  fun _ _ => rfl

theorem EncodedBytes.start98 :
    EncodedBytes.Statement .start98 :=
  fun _ _ => rfl

theorem EncodedBytes.noise (b : Byte) :
    EncodedBytes.Statement (.noise b) :=
  fun _ _ => rfl

theorem EncodedBytes.data (b : Byte) :
    EncodedBytes.Statement (.data b) :=
  fun _ _ => rfl

theorem EncodedBytes.end9d :
    EncodedBytes.Statement .end9d :=
  fun _ _ => rfl

theorem EncodedBytes.badEnd (b : Byte) :
    EncodedBytes.Statement (.badEnd b) :=
  fun _ _ => rfl

theorem EncodedBytes.len0 :
    EncodedBytes.Statement .len0 :=
  fun _ _ => rfl

theorem EncodedBytes.len1 :
    EncodedBytes.Statement .len1 :=
  fun _ _ => rfl

theorem EncodedBytes.lenOk (len : Byte) :
    EncodedBytes.Statement (.lenOk len) :=
  fun _ _ => rfl

theorem EncodedBytes.lenOverflow (len : Byte) :
    EncodedBytes.Statement (.lenOverflow len) :=
  fun _ _ => rfl

theorem EncodedBytes.msgHeartbeat (len : Byte) (payload : List Byte) :
    EncodedBytes.Statement (.msgHeartbeat len payload) :=
  fun _ h => deliverable_length h

theorem EncodedBytes.msgHeight (h : Byte) (t : Byte) (o : Byte) (r3 : Byte) (r4 : Byte) :
    EncodedBytes.Statement (.msgHeight h t o r3 r4) :=
  fun _ _ => rfl

theorem EncodedBytes.msgHeightBadlen (len : Byte) (payload : List Byte) :
    EncodedBytes.Statement (.msgHeightBadlen len payload) :=
  fun _ h => deliverable_length (Bool.and_eq_true_iff.mp h).2

theorem EncodedBytes.msgOther (type : Byte) (len : Byte) (payload : List Byte) :
    EncodedBytes.Statement (.msgOther type len payload) :=
  fun _ h => deliverable_length (Bool.and_eq_true_iff.mp h).2

theorem EncodedBytes.cmdWake :
    EncodedBytes.Statement .cmdWake :=
  fun _ _ => rfl

theorem EncodedBytes.cmdSilent :
    EncodedBytes.Statement .cmdSilent :=
  fun _ _ => rfl

theorem EncodedBytes.digit0 (port : Port) (d : Bool) :
    EncodedBytes.Statement (.digit0 port d) :=
  fun _ _ => rfl

theorem EncodedBytes.digit1 (port : Port) (d : Bool) :
    EncodedBytes.Statement (.digit1 port d) :=
  fun _ _ => rfl

theorem EncodedBytes.digit2 (port : Port) (d : Bool) :
    EncodedBytes.Statement (.digit2 port d) :=
  fun _ _ => rfl

theorem EncodedBytes.digit3 (port : Port) (d : Bool) :
    EncodedBytes.Statement (.digit3 port d) :=
  fun _ _ => rfl

theorem EncodedBytes.digit4 (port : Port) (d : Bool) :
    EncodedBytes.Statement (.digit4 port d) :=
  fun _ _ => rfl

theorem EncodedBytes.digit5 (port : Port) (d : Bool) :
    EncodedBytes.Statement (.digit5 port d) :=
  fun _ _ => rfl

theorem EncodedBytes.digit6 (port : Port) (d : Bool) :
    EncodedBytes.Statement (.digit6 port d) :=
  fun _ _ => rfl

theorem EncodedBytes.digit7 (port : Port) (d : Bool) :
    EncodedBytes.Statement (.digit7 port d) :=
  fun _ _ => rfl

theorem EncodedBytes.digit8 (port : Port) (d : Bool) :
    EncodedBytes.Statement (.digit8 port d) :=
  fun _ _ => rfl

theorem EncodedBytes.digit9 (port : Port) (d : Bool) :
    EncodedBytes.Statement (.digit9 port d) :=
  fun _ _ => rfl

theorem EncodedBytes.digitMinus (port : Port) (d : Bool) :
    EncodedBytes.Statement (.digitMinus port d) :=
  fun _ _ => rfl

theorem EncodedBytes.digitBlank (port : Port) (d : Bool) :
    EncodedBytes.Statement (.digitBlank port d) :=
  fun _ _ => rfl

theorem EncodedBytes.digitInvalid (port : Port) (d : Bool) (p : Pattern) :
    EncodedBytes.Statement (.digitInvalid port d p) :=
  fun _ _ => rfl

end Sys2Proof.Laws
end

