-- ==== Sys2Proof/Laws/Roms.lean ====
section
/-! SUPPORT. Digit bytes and the digit ROM: taking a digit byte apart and together, and which patterns an entry
stands for. -/

namespace Sys2Proof

open Sys2Proof.Safety

@[simp] theorem patternOf_digitByte (d : Bool) (p : Pattern) : patternOf (digitByte d p) = p := by
  revert p; cases d <;> decide

@[simp] theorem hasDecimal_digitByte (d : Bool) (p : Pattern) : hasDecimal (digitByte d p) = d := by
  revert p; cases d <;> decide

/-- A digit byte is its decimal-point bit and its pattern, and nothing else. -/
@[simp] theorem digitByte_split (b : Byte) : digitByte (hasDecimal b) (patternOf b) = b := by
  revert b; decide

/-- The pattern that an entry of `SegRom` other than Invalid stands for. -/
def patternFor (t : SegTable) : Digit → Option Pattern
  | .num n => some (digitPattern t n)
  | .minus => some t.minus
  | .blank => some 0#7
  | .invalid => none

/-- An entry of `SegRom` that is not Invalid is at the pattern it stands for. -/
theorem patternFor_segRom {t : SegTable} {p : Pattern} (h : segRom t p ≠ .invalid) :
    patternFor t (segRom t p) = some p := by
  generalize hr : segRom t p = r at h ⊢
  unfold segRom at hr
  by_cases h0 : p = 0#7
  · rw [if_pos h0] at hr; rw [← hr, h0]; rfl
  rw [if_neg h0] at hr
  have row : ∀ {q : Pattern} {d e : Digit}, patternFor t d = some q → (e = r → patternFor t r = some p) →
      (if p = q then d else e) = r → patternFor t r = some p := by
    intro q d e hd he hi
    by_cases hq : p = q
    · rw [if_pos hq] at hi; rw [← hi, hd, hq]
    · rw [if_neg hq] at hi; exact he hi
  exact row (d := .num 0) rfl (row (d := .num 1) rfl (row (d := .num 2) rfl (row (d := .num 3) rfl
    (row (d := .num 4) rfl (row (d := .num 5) rfl (row (d := .num 6) rfl (row (d := .num 7) rfl
    (row (d := .num 8) rfl (row (d := .num 9) rfl (row (d := .minus) rfl
    fun e => absurd e.symm h)))))))))) hr

end Sys2Proof
end

