-- ==== Sys2Proof/Laws/Run.lean ====
section
/-! SUPPORT. Runs of the host's machine, one step at a time. -/

namespace Sys2Proof.Machine

/-- A run of `n + 1` steps of any machine whose first step goes on is a run of `n` steps from there. -/
theorem host_run_succ (M : Host.Core) (n : Nat) (s t : M.State) (h : M.step s = .next t) :
    M.run (n + 1) s = M.run n t := by
  simp [Host.Core.run, h]

/-- The same for this machine. -/
theorem run_succ_of_step {n : Nat} {s t : State} (h : step s = .next t) :
    Host.Core.run core (n + 1) s = Host.Core.run core n t :=
  host_run_succ core n s t h

end Sys2Proof.Machine
end

