-- ==== Sys2Proof/Laws/Step.lean ====
section
/-! SUPPORT. What each phase of a clock step can do, said once: FR on a byte, HI on a Packet, PS, TX, and the clock
step that they make up. -/

namespace Sys2Proof.Machine

open Sys2Proof.Safety

/-! ### FR -/

/-- What FR can make of one byte `b` received in state `s`. -/
inductive FrOutcome (s : State) (b : Byte) : State → Prop
  | start : s.fr.cursor = 0#5 → b = 0x9B#8 ∨ b = 0x98#8 → FrOutcome s b (startFrame b s)
  | noise : s.fr.cursor = 0#5 → b ≠ 0x9B#8 → b ≠ 0x98#8 → FrOutcome s b (setFrEvt .none s)
  | accumulate : s.fr.cursor ≠ 0#5 →
      (2 ≤ s.fr.cursor.toNat → s.fr.cursor.toNat + 1 ≠ (readByte s.fr.buf 1).toNat + 2) →
      (s.fr.cursor = 1#5 → b ≠ 0#8) → FrOutcome s b (accumulate b s)
  | zeroLength : s.fr.cursor = 1#5 → b = 0#8 → FrOutcome s b (frameError .badEnd (appendByte b s))
  | badEnd : 2 ≤ s.fr.cursor.toNat → s.fr.cursor.toNat + 1 = (readByte s.fr.buf 1).toNat + 2 → b ≠ 0x9D#8 →
      FrOutcome s b (frameError .badEnd (appendByte b s))
  | badLength : 2 ≤ s.fr.cursor.toNat → s.fr.cursor.toNat + 1 = (readByte s.fr.buf 1).toNat + 2 →
      (readByte s.fr.buf 1).toNat < 2 → b = 0x9D#8 →
      FrOutcome s b (frameError .badLength (appendByte b s))
  | packet : 2 ≤ s.fr.cursor.toNat → s.fr.cursor.toNat + 1 = (readByte s.fr.buf 1).toNat + 2 →
      2 ≤ (readByte s.fr.buf 1).toNat → b = 0x9D#8 →
      FrOutcome s b (deliver (packetOf (appendByte b s).fr.buf) (appendByte b s))

/-- The class of a byte where it stands always executes, with one of the outcomes of FR. -/
theorem exec_frameByte (s : State) (b : Byte) :
    ∃ t, exec (decodeFrameByte (frameContext s.fr) b) s = .next t ∧ FrOutcome s b t := by
  have hlt := s.fr.cursor.isLt
  unfold frameContext
  by_cases h0 : s.fr.cursor = 0#5
  · simp only [if_pos h0, decodeFrameByte, decodeScanning]
    by_cases h9 : b = 0x9B#8
    · subst h9; exact ⟨_, rfl, .start h0 (.inl rfl)⟩
    by_cases h8 : b = 0x98#8
    · subst h8; exact ⟨_, rfl, .start h0 (.inr rfl)⟩
    simp only [h9, h8]
    exact ⟨_, rfl, .noise h0 h9 h8⟩
  have h0' : s.fr.cursor.toNat ≠ 0 := fun h => h0 (BitVec.eq_of_toNat_eq h)
  rw [if_neg h0]
  by_cases h1 : s.fr.cursor = 1#5
  · simp only [if_pos h1, decodeFrameByte, decodeLength]
    have h1' : s.fr.cursor.toNat = 1 := by rw [h1]; rfl
    by_cases hz : b = 0#8
    · subst hz
      exact ⟨_, by rw [if_pos rfl]; rfl, .zeroLength h1 rfl⟩
    rw [if_neg hz]
    refine ⟨accumulate b s, ?_, .accumulate h0 (fun h => by omega) (fun _ => hz)⟩
    by_cases hz1 : b = 1#8
    · rw [if_pos hz1, hz1]; rfl
    · rw [if_neg hz1]
      split <;> rfl
  have h1' : s.fr.cursor.toNat ≠ 1 := fun h => h1 (BitVec.eq_of_toNat_eq h)
  rw [if_neg h1]
  have hr : lengthByte (appendByte endByte9d s).fr.buf = readByte s.fr.buf 1 :=
    readByte_writeByte_other _ (by omega)
  rw [expectedLength_toNat]
  by_cases he : countAfter s.fr.cursor = (lengthByte s.fr.buf).toNat + 2
  · rw [if_pos he]
    have he' : s.fr.cursor.toNat + 1 = (readByte s.fr.buf 1).toNat + 2 := he
    simp only [decodeFrameByte, decodeEnd]
    by_cases h9 : b = 0x9D#8
    · subst h9
      simp only [if_true, exec, execEnd9d]
      rcases completeFrame_cases (appendByte endByte9d s) with ⟨h, e⟩ | ⟨h, _, e⟩ | ⟨h, e⟩ <;>
        rw [hr] at h <;> rw [e]
      · exact ⟨_, rfl, .badLength (by omega) he' h rfl⟩
      · exact ⟨_, rfl, .packet (by omega) he' h rfl⟩
      · omega
    · simp only [if_neg h9]
      exact ⟨_, rfl, .badEnd (by omega) he' h9⟩
  · rw [if_neg he]
    exact ⟨_, rfl, .accumulate h0 (fun _ => he) (fun h => absurd h h1)⟩

/-- FR on a byte changes nothing outside FR. -/
theorem FrOutcome.sameOutside {s t : State} {b : Byte} (h : FrOutcome s b t) : SameOutsideFr s t := by
  cases h
  case accumulate =>
    rcases accumulate_cases s b with ⟨-, he⟩ | ⟨-, he⟩ <;> rw [he] <;>
      exact ⟨rfl, rfl, rfl, rfl, rfl, rfl, rfl, rfl, rfl, rfl, rfl, rfl, rfl⟩
  all_goals exact ⟨rfl, rfl, rfl, rfl, rfl, rfl, rfl, rfl, rfl, rfl, rfl, rfl, rfl⟩

/-! ### HI -/

/-- What HI can make of a step: nothing without a Packet, one of the two codes for an ignored class, or the result
of a height broadcast. -/
inductive HiOutcome (s : State) : State → Prop
  | idle : s.out.pkt = none → HiOutcome s s
  | code (e : HiEvt) (p : Packet) : s.out.pkt = some p → e = .heartbeat ∨ e = .other →
      p.type ≠ 0x12#8 ∨ p.length ≠ 7#8 ∨ p.payload.length ≠ 5 → HiOutcome s (setHiEvt e s)
  | height (p : Packet) (h t o r3 r4 : Byte) : s.out.pkt = some p → p.type = 0x12#8 → p.length = 7#8 →
      p.payload = [h, t, o, r3, r4] →
      HiOutcome s
        (applyHeight
          (judgeHeight (segRom s.segTable (patternOf h)) (segRom s.segTable (patternOf t))
            (segRom s.segTable (patternOf o)) (hasDecimal t))
          (withDigits h t o s))

/-- The message class of a Packet always executes, with one of the outcomes of HI. -/
theorem hiPhase_outcome (s : State) : ∃ t, hiPhase s = .next t ∧ HiOutcome s t := by
  unfold hiPhase
  cases hp : s.out.pkt with
  | none => exact ⟨_, rfl, .idle hp⟩
  | some p =>
    simp only [messageOf, decodeMessage]
    split
    · rename_i hh
      exact ⟨_, rfl, .code _ p hp (.inl rfl) (.inl (by rw [hh]; decide))⟩
    split
    · split
      · split
        · rename_i ht hl _ h t o r3 r4 hpl
          exact ⟨_, execMsgHeight_eq h t o r3 r4 s, .height p h t o r3 r4 hp ht hl hpl⟩
        · rename_i hn
          refine ⟨_, rfl, .code _ p hp (.inr rfl) (.inr (.inr fun hl => ?_))⟩
          match hpl : p.payload, hl with
          | [h, t, o, r3, r4], _ => exact hn h t o r3 r4 hpl
      · exact ⟨_, rfl, .code _ p hp (.inr rfl) (.inr (.inl ‹_›))⟩
    · exact ⟨_, rfl, .code _ p hp (.inr rfl) (.inl ‹_›)⟩

/-- HI changes nothing outside HI. -/
theorem HiOutcome.sameOutside {s t : State} (h : HiOutcome s t) : SameOutsideHi s t := by
  cases h
  case height =>
    generalize judgeHeight _ _ _ _ = r
    cases r <;> exact ⟨rfl, rfl, rfl, rfl, rfl, rfl, rfl, rfl, rfl, rfl, rfl, rfl⟩
  all_goals exact ⟨rfl, rfl, rfl, rfl, rfl, rfl, rfl, rfl, rfl, rfl, rfl, rfl⟩

/-- The code of an ignored height broadcast is not READING. -/
theorem judgeHeight_ignored {dh dt dO : Digit} {d : Bool} {e : HiEvt}
    (hj : judgeHeight dh dt dO d = .ignored e) : e ≠ .reading := by
  unfold judgeHeight judgeDigits at hj
  repeat' split at hj
  all_goals cases hj
  all_goals decide

/-! ### PS -/

section
variable (n : Time) (s : State)

/-- PS writes its own registers and its own two fields of the event record. -/
theorem psStep_eq : ∃ r e q, psStep n s = (s.withPs r).withOut { s.out with psEvt := e, txReq := q } := by
  unfold psStep
  rw [activityUpdate_eq]
  generalize hr : ({ s.ps with lastActivityTime := if s.out.activity then n else s.ps.lastActivityTime } : PsRegs) = r
  rcases transition_cases n (s.withPs r) with h | ⟨-, -, h⟩ | ⟨-, h⟩ | ⟨-, p, v, e, -, h⟩ <;> rw [h]
  · exact ⟨r, s.out.psEvt, s.out.txReq, rfl⟩
  · exact ⟨_, _, s.out.txReq, rfl⟩
  · exact ⟨_, _, s.out.txReq, rfl⟩
  · exact ⟨_, _, _, rfl⟩

@[simp] theorem psStep_fr : (psStep n s).fr = s.fr := by obtain ⟨_, _, _, h⟩ := psStep_eq n s; rw [h]; rfl
@[simp] theorem psStep_hi : (psStep n s).hi = s.hi := by obtain ⟨_, _, _, h⟩ := psStep_eq n s; rw [h]; rfl
@[simp] theorem psStep_tx : (psStep n s).tx = s.tx := by obtain ⟨_, _, _, h⟩ := psStep_eq n s; rw [h]; rfl
@[simp] theorem psStep_cfg : (psStep n s).cfg = s.cfg := by obtain ⟨_, _, _, h⟩ := psStep_eq n s; rw [h]; rfl
@[simp] theorem psStep_segTable : (psStep n s).segTable = s.segTable := by
  obtain ⟨_, _, _, h⟩ := psStep_eq n s; rw [h]; rfl
@[simp] theorem psStep_inputs : (psStep n s).inputs = s.inputs := by
  obtain ⟨_, _, _, h⟩ := psStep_eq n s; rw [h]; rfl
@[simp] theorem psStep_wires : (psStep n s).wires = s.wires := by
  obtain ⟨_, _, _, h⟩ := psStep_eq n s; rw [h]; rfl
@[simp] theorem psStep_frEvt : (psStep n s).out.frEvt = s.out.frEvt := by
  obtain ⟨_, _, _, h⟩ := psStep_eq n s; rw [h]; rfl
@[simp] theorem psStep_pkt : (psStep n s).out.pkt = s.out.pkt := by
  obtain ⟨_, _, _, h⟩ := psStep_eq n s; rw [h]; rfl
@[simp] theorem psStep_hiEvt : (psStep n s).out.hiEvt = s.out.hiEvt := by
  obtain ⟨_, _, _, h⟩ := psStep_eq n s; rw [h]; rfl
@[simp] theorem psStep_activity : (psStep n s).out.activity = s.out.activity := by
  obtain ⟨_, _, _, h⟩ := psStep_eq n s; rw [h]; rfl
@[simp] theorem psStep_pub : (psStep n s).out.pub = s.out.pub := by
  obtain ⟨_, _, _, h⟩ := psStep_eq n s; rw [h]; rfl

end

/-! ### TX -/

/-- The state that TX leaves: SEND and ADVANCE, then the request of the step, if there is one. -/
def afterTx (inp : Input) (s : State) : State :=
  match s.out.txReq with
  | some w => accept w (advance inp.txReady s)
  | none => advance inp.txReady s

theorem txPhase_next (inp : Input) (s : State) : txPhase inp s = .next (afterTx inp s) := txPhase_eq s inp

section
variable (inp : Input) (s : State)

/-- TX writes its own registers and the transferred byte. -/
theorem afterTx_eq : ∃ r b, afterTx inp s = (s.withTx r).withWires { s.wires with txSent := b } := by
  unfold afterTx
  rcases advance_cases s inp.txReady with ⟨-, -, h⟩ | ⟨-, h⟩ <;> rw [h] <;> cases s.out.txReq
  · exact ⟨_, _, rfl⟩
  · exact ⟨_, _, rfl⟩
  · exact ⟨s.tx, s.wires.txSent, rfl⟩
  · exact ⟨{ txBusy := true, txSel := _, txIdx := 0#3 }, s.wires.txSent, rfl⟩

@[simp] theorem afterTx_fr : (afterTx inp s).fr = s.fr := by obtain ⟨_, _, h⟩ := afterTx_eq inp s; rw [h]; rfl
@[simp] theorem afterTx_hi : (afterTx inp s).hi = s.hi := by obtain ⟨_, _, h⟩ := afterTx_eq inp s; rw [h]; rfl
@[simp] theorem afterTx_ps : (afterTx inp s).ps = s.ps := by obtain ⟨_, _, h⟩ := afterTx_eq inp s; rw [h]; rfl
@[simp] theorem afterTx_cfg : (afterTx inp s).cfg = s.cfg := by obtain ⟨_, _, h⟩ := afterTx_eq inp s; rw [h]; rfl
@[simp] theorem afterTx_segTable : (afterTx inp s).segTable = s.segTable := by
  obtain ⟨_, _, h⟩ := afterTx_eq inp s; rw [h]; rfl
@[simp] theorem afterTx_inputs : (afterTx inp s).inputs = s.inputs := by
  obtain ⟨_, _, h⟩ := afterTx_eq inp s; rw [h]; rfl
@[simp] theorem afterTx_out : (afterTx inp s).out = s.out := by
  obtain ⟨_, _, h⟩ := afterTx_eq inp s; rw [h]; rfl
@[simp] theorem afterTx_reading : (afterTx inp s).wires.reading = s.wires.reading := by
  obtain ⟨_, _, h⟩ := afterTx_eq inp s; rw [h]; rfl

end

/-! ### The clock step -/

/-- A clock step without reset: FR's outcome `s1`, HI's outcome `s2`, then PS and TX. -/
theorem clockStep_phases (inp : Input) (s : State) (hr : inp.rst = false) :
    ∃ s1 s2,
      frPhase inp (beginStep s) = .next s1 ∧
      (inp.rxValid = true → FrOutcome (beginStep s) inp.rxData s1) ∧
      (inp.rxValid = false → s1 = beginStep s) ∧
      SameOutsideFr (beginStep s) s1 ∧
      hiPhase s1 = .next s2 ∧ HiOutcome s1 s2 ∧
      clockStep inp s = .next (afterTx inp (psStep inp.nowMs s2)) := by
  have hf : ∃ s1, frPhase inp (beginStep s) = .next s1 ∧
      (inp.rxValid = true → FrOutcome (beginStep s) inp.rxData s1) ∧
      (inp.rxValid = false → s1 = beginStep s) ∧ SameOutsideFr (beginStep s) s1 := by
    unfold frPhase
    cases inp.rxValid
    · exact ⟨_, rfl, by simp, by simp, rfl, rfl, rfl, rfl, rfl, rfl, rfl, rfl, rfl, rfl, rfl, rfl, rfl⟩
    · obtain ⟨t, h1, h2⟩ := exec_frameByte (beginStep s) inp.rxData
      exact ⟨t, h1, fun _ => h2, by simp, h2.sameOutside⟩
  obtain ⟨s1, h1, h2, h3, h4⟩ := hf
  obtain ⟨s2, h5, h6⟩ := hiPhase_outcome s1
  refine ⟨s1, s2, h1, h2, h3, h4, h5, h6, ?_⟩
  simp only [clockStep, hr, Bool.false_eq_true, if_false, h1, andThen_next, afterFr, h5, psPhase, txPhase_next]

end Sys2Proof.Machine
end

