-- ==== Sys2Proof/Tests/Slice0.lean ====
section
/-! SUPPORT. The model's own tests: ill-formed terms, decoding of written-out words, one step per test with the
result taken from spec/95_test_vectors.md, and a witness for the hypotheses of each statement. A vector is cited by
its name there, as in "L2-FR-6". -/

namespace Sys2Proof.Tests

open Sys2Proof.Machine Sys2Proof.Safety

/-! ### Helpers -/

/-- The next state of an outcome. -/
def nextOf (o : Outcome) : Option State :=
  match o with
  | .next s => some s
  | .fault _ => none
  | .refused _ => none

/-- A clock step's inputs at time `now`: no byte, no reset, `tx_ready = 1`. -/
def tickAt (now : Time) : Input where
  rst := false
  rxValid := false
  rxData := 0#8
  nowMs := now
  txReady := true

/-- The same with a received byte. -/
def byteAt (now : Time) (b : Byte) : Input := { tickAt now with rxValid := true, rxData := b }

/-- A reset step's inputs, with a byte presented in it. -/
def resetAt (now : Time) : Input := { byteAt now 0x9B#8 with rst := true }

/-- The state after reset with a frame begun. -/
def holding (frame : List Byte) : State :=
  { State.reset with
    fr := { buf := writeBytes [] 0 frame, cursor := BitVec.ofNat 5 frame.length } }

/-- A state with the inputs of its coming steps. -/
def given (s : State) (inps : List Input) : State := { s with inputs := inps }

/-- The step in which a byte is received behind a begun frame. -/
def receive (frame : List Byte) (b : Byte) : Option State :=
  nextOf (step (given (holding frame) [byteAt 0#32 b]))

/-- The frame bytes of a height broadcast but for its end byte. -/
def heightFrame (h t o : Byte) : List Byte := [0x9B#8, 0x07#8, 0x12#8, h, t, o, 0#8, 0#8]

/-- The outcome and the value in tenths of the step that completes a height broadcast after reset. -/
def height (h t o : Byte) : Option (HiEvt × Option Height) :=
  (receive (heightFrame h t o) 0x9D#8).map fun s => (s.out.hiEvt, s.wires.reading.map Reading.value)

/-- PS in a state, with a time of the last poll and of the last activity. -/
def scheduler (p : PsState) (poll activity : Time) : State :=
  { State.reset with
    ps := { psState := p, bootTime := 0#32, lastPollTime := poll, lastActivityTime := activity } }

/-- TX at an index of a command. -/
def sending (v : Variant) (k : BitVec 3) : State :=
  { scheduler .idle 1001#32 0#32 with tx := { txBusy := true, txSel := v, txIdx := k } }

/-- The state after the first reading of a run, 123.0. -/
def tracking : State :=
  { holding (heightFrame 0x06#8 0x5B#8 0x4F#8) with
    hi := { curHeightValid := true, curHeight := 1230#14, lastPubValid := true, lastPub := 1230#14 } }

/-! ### WellFormed: each check refuses an ill-formed term (30 sections 1 to 3) -/

theorem test_wf_noise_not_start :
    (Instr.noise 0x9B#8).wf defaultSegTable = false ∧ (Instr.noise 0x98#8).wf defaultSegTable = false := by decide
theorem test_wf_badEnd_not_end : (Instr.badEnd 0x9D#8).wf defaultSegTable = false := by decide
theorem test_wf_lenOk_range :
    (Instr.lenOk 1#8).wf defaultSegTable = false ∧ (Instr.lenOk 31#8).wf defaultSegTable = false ∧
    (Instr.lenOk 2#8).wf defaultSegTable = true ∧ (Instr.lenOk 30#8).wf defaultSegTable = true := by decide
theorem test_wf_lenOverflow_range :
    (Instr.lenOverflow 30#8).wf defaultSegTable = false ∧
    (Instr.lenOverflow 31#8).wf defaultSegTable = true := by decide
theorem test_wf_heartbeat_payload :
    (Instr.msgHeartbeat 4#8 [0x7C#8]).wf defaultSegTable = false ∧
    (Instr.msgHeartbeat 1#8 []).wf defaultSegTable = false ∧
    (Instr.msgHeartbeat 31#8 (List.replicate 29 0#8)).wf defaultSegTable = false := by decide
theorem test_wf_badlen_not_seven :
    (Instr.msgHeightBadlen 7#8 [0#8, 0#8, 0#8, 0#8, 0#8]).wf defaultSegTable = false ∧
    (Instr.msgHeightBadlen 8#8 [0#8]).wf defaultSegTable = false := by decide
theorem test_wf_other_type :
    (Instr.msgOther 0x11#8 2#8 []).wf defaultSegTable = false ∧
    (Instr.msgOther 0x12#8 2#8 []).wf defaultSegTable = false ∧
    (Instr.msgOther 0x55#8 2#8 [0#8]).wf defaultSegTable = false := by decide
theorem test_wf_digitInvalid_pattern :
    (Instr.digitInvalid .tens false 0x3F#7).wf defaultSegTable = false ∧
    (Instr.digitInvalid .tens false 0#7).wf defaultSegTable = false := by decide

/-! ### Decoding: a word of every constructor, written out from 30 and, for the digits, 40 R101 (log 3) -/

theorem test_decode_start9b : decode defaultSegTable (.frame .scanning) [0b10011011#8] = .ok .start9b := rfl
theorem test_decode_start98 : decode defaultSegTable (.frame .scanning) [0b10011000#8] = .ok .start98 := rfl
theorem test_decode_noise :
    decode defaultSegTable (.frame .scanning) [0b10011101#8] = .ok (.noise 0x9D#8) := rfl
theorem test_decode_data : decode defaultSegTable (.frame .data) [0b10011011#8] = .ok (.data 0x9B#8) := rfl
theorem test_decode_end9d : decode defaultSegTable (.frame .atEnd) [0b10011101#8] = .ok .end9d := rfl
theorem test_decode_badEnd : decode defaultSegTable (.frame .atEnd) [0b01010101#8] = .ok (.badEnd 0x55#8) := rfl
theorem test_decode_len0 : decode defaultSegTable (.frame .length) [0b00000000#8] = .ok .len0 := rfl
theorem test_decode_len1 : decode defaultSegTable (.frame .length) [0b00000001#8] = .ok .len1 := rfl
theorem test_decode_lenOk : decode defaultSegTable (.frame .length) [0b00000111#8] = .ok (.lenOk 7#8) := rfl
theorem test_decode_lenOverflow :
    decode defaultSegTable (.frame .length) [0b11111111#8] = .ok (.lenOverflow 255#8) := rfl
theorem test_decode_msgHeartbeat :
    decode defaultSegTable (.message 4#8) [0b00010001#8, 0x7C#8, 0xC3#8] =
      .ok (.msgHeartbeat 4#8 [0x7C#8, 0xC3#8]) := rfl
theorem test_decode_msgHeight :
    decode defaultSegTable (.message 7#8) [0b00010010#8, 0x06#8, 0x5B#8, 0x4F#8, 0x11#8, 0x22#8] =
      .ok (.msgHeight 0x06#8 0x5B#8 0x4F#8 0x11#8 0x22#8) := rfl
theorem test_decode_msgHeightBadlen :
    decode defaultSegTable (.message 3#8) [0b00010010#8, 0x06#8] = .ok (.msgHeightBadlen 3#8 [0x06#8]) := rfl
theorem test_decode_msgOther :
    decode defaultSegTable (.message 2#8) [0b01010101#8] = .ok (.msgOther 0x55#8 2#8 []) := rfl
theorem test_decode_cmdWake :
    decode defaultSegTable .command [0x9B#8, 0x06#8, 0x02#8, 0x20#8, 0x00#8, 0xAC#8, 0xB8#8, 0x9D#8] =
      .ok .cmdWake := rfl
theorem test_decode_cmdSilent :
    decode defaultSegTable .command [0x9B#8, 0x06#8, 0x02#8, 0x00#8, 0x00#8, 0x6C#8, 0xA1#8, 0x9D#8] =
      .ok .cmdSilent := rfl
theorem test_decode_digit0 :
    decode defaultSegTable (.digit .tens) [0b10111111#8] = .ok (.digit0 .tens true) := rfl
theorem test_decode_digit1 :
    decode defaultSegTable (.digit .hundreds) [0b00000110#8] = .ok (.digit1 .hundreds false) := rfl
theorem test_decode_digit2 :
    decode defaultSegTable (.digit .tens) [0b11011011#8] = .ok (.digit2 .tens true) := rfl
theorem test_decode_digit3 :
    decode defaultSegTable (.digit .ones) [0b01001111#8] = .ok (.digit3 .ones false) := rfl
theorem test_decode_digit4 :
    decode defaultSegTable (.digit .ones) [0b01100110#8] = .ok (.digit4 .ones false) := rfl
theorem test_decode_digit5 :
    decode defaultSegTable (.digit .ones) [0b01101101#8] = .ok (.digit5 .ones false) := rfl
theorem test_decode_digit6 :
    decode defaultSegTable (.digit .ones) [0b01111101#8] = .ok (.digit6 .ones false) := rfl
theorem test_decode_digit7 :
    decode defaultSegTable (.digit .ones) [0b00000111#8] = .ok (.digit7 .ones false) := rfl
theorem test_decode_digit8 :
    decode defaultSegTable (.digit .hundreds) [0b11111111#8] = .ok (.digit8 .hundreds true) := rfl
theorem test_decode_digit9 :
    decode defaultSegTable (.digit .ones) [0b01101111#8] = .ok (.digit9 .ones false) := rfl
theorem test_decode_digitMinus :
    decode defaultSegTable (.digit .tens) [0b11000000#8] = .ok (.digitMinus .tens true) := rfl
theorem test_decode_digitBlank :
    decode defaultSegTable (.digit .hundreds) [0b10000000#8] = .ok (.digitBlank .hundreds true) := rfl
theorem test_decode_digitInvalid :
    decode defaultSegTable (.digit .ones) [0b10011101#8] = .ok (.digitInvalid .ones true 0x1D#7) := rfl

theorem test_decode_refuses_by_name :
    decode defaultSegTable (.frame .data) [] = .error .byteCount ∧
    decode defaultSegTable (.message 4#8) [0x11#8] = .error .packetLength ∧
    decode defaultSegTable .command [0x9B#8] = .error .unknownCommand := ⟨rfl, rfl, rfl⟩

/-- The words of the opcode table, a command in both byte orders (log 12). -/
theorem test_table_words :
    decodeTableWord 8 0x9B = some .start9b ∧ decodeTableWord 8 0x98 = some .start98 ∧
    decodeTableWord 8 0x9D = some .end9d ∧ decodeTableWord 8 0x01 = some .len1 ∧
    decodeTableWord 8 0x12 = some (.msgHeight 0#8 0#8 0#8 0#8 0#8) ∧
    decodeTableWord 8 0xBF = some (.digit0 .tens true) ∧
    decodeTableWord 64 0x9B06022000ACB89D = some .cmdWake ∧
    decodeTableWord 64 0x9DA16C000002069B = some .cmdSilent := by decide

/-- A placed word runs in the next step (log 13): the end byte delivers a Packet, and the command is requested and
taken. -/
theorem test_fetch_end9d :
    (nextOf (step (State.reset.withFetchWord 8 0x9D))).map (fun t => t.out.frEvt) = some .packet := by decide
theorem test_fetch_cmdWake :
    (nextOf (step (State.reset.withFetchWord 64 0x9B06022000ACB89D))).map (fun t => (t.tx, t.out.txReq)) =
      some ({ txBusy := true, txSel := .wake, txIdx := 0#3 }, some .wake) := by decide

/-! ### FR -/

/-- Of `9B 07 12 …`, byte 1. -/
theorem test_start9b :
    (receive [] 0x9B#8).map (fun t => (t.fr.cursor, readByte t.fr.buf 0)) = some (1#5, 0x9B#8) := by decide
/-- L2-FR-2, byte 1. -/
theorem test_start98 :
    (receive [] 0x98#8).map (fun t => (t.fr.cursor, readByte t.fr.buf 0)) = some (1#5, 0x98#8) := by decide
/-- L2-FR-1, byte 2. -/
theorem test_noise : (receive [] 0x9D#8).map (fun t => (t.fr, t.out.frEvt)) = some (State.reset.fr, .none) := by decide
/-- The example of 41 R123. -/
theorem test_data :
    (receive [0x9B#8, 0x07#8, 0x12#8] 0x06#8).map (fun t => (t.fr.cursor, readByte t.fr.buf 3)) =
      some (4#5, 0x06#8) := by decide
/-- L2-FR-9, byte 32. -/
theorem test_data_overflows :
    (receive (0x9B#8 :: 0xFF#8 :: List.replicate 29 0#8) 0#8).map (fun t => (t.fr.cursor, t.out.frEvt)) =
      some (0#5, .overflow) := by decide
/-- L2-FR-6, byte 4. -/
theorem test_end9d :
    (receive [0x9B#8, 0x02#8, 0x55#8] 0x9D#8).map (fun t => (t.fr.cursor, t.out.frEvt, t.out.pkt, t.out.hiEvt)) =
      some (0#5, .packet,
        some { start := 0x9B#8, length := 2#8, type := 0x55#8, payload := [], endByte := 0x9D#8 },
        .other) := by decide
/-- L2-FR-4, byte 3. -/
theorem test_end9d_bad_length :
    (receive [0x98#8, 0x01#8] 0x9D#8).map (fun t => (t.fr.cursor, t.out.frEvt, t.out.pkt)) =
      some (0#5, .badLength, none) := by decide
/-- L1-5, byte 9. -/
theorem test_badEnd :
    (receive (heightFrame 0x06#8 0x5B#8 0x4F#8) 0#8).map (fun t => (t.fr.cursor, t.out.frEvt, t.out.pkt)) =
      some (0#5, .badEnd, none) := by decide
/-- L2-FR-3. -/
theorem test_len0 :
    (receive [0x9B#8] 0#8).map (fun t => (t.fr.cursor, t.out.frEvt)) = some (0#5, .badEnd) := by decide
/-- L2-FR-5, byte 2. -/
theorem test_len1 :
    (receive [0x9B#8] 1#8).map (fun t => (t.fr.cursor, t.out.frEvt)) = some (2#5, .none) := by decide
/-- L2-FR-7, byte 2. -/
theorem test_lenOk :
    (receive [0x9B#8] 0x1E#8).map (fun t => (t.fr.cursor, readByte t.fr.buf 1)) = some (2#5, 0x1E#8) := by decide
/-- L2-FR-12, byte 2. -/
theorem test_lenOverflow :
    (receive [0x9B#8] 0x9B#8).map (fun t => (t.fr.cursor, t.out.frEvt)) = some (2#5, .none) := by decide
/-- L2-FR-7, byte 32: the completion check comes before the overflow check. -/
theorem test_longest_frame :
    (receive (0x9B#8 :: 0x1E#8 :: 0x12#8 :: List.replicate 28 0#8) 0x9D#8).map
      (fun t => (t.out.frEvt, t.out.hiEvt)) = some (.packet, .other) := by decide
/-- L2-FR-8, byte 32. -/
theorem test_too_long_frame :
    (receive (0x9B#8 :: 0x1F#8 :: 0x12#8 :: List.replicate 28 0#8) 0x9D#8).map
      (fun t => (t.out.frEvt, t.out.pkt)) = some (.overflow, none) := by decide

/-! ### HI -/

/-- L2-FR-14, byte 6. -/
theorem test_heartbeat :
    (receive [0x9B#8, 0x04#8, 0x11#8, 0x7C#8, 0xC3#8] 0x9D#8).map
      (fun t => (t.out.hiEvt, t.out.activity, t.hi)) = some (.heartbeat, false, State.reset.hi) := by decide
/-- L2-FR-15, byte 10. -/
theorem test_height_badlen :
    (receive [0x9B#8, 0x08#8, 0x12#8, 0x06#8, 0x5B#8, 0x4F#8, 0#8, 0#8, 0#8] 0x9D#8).map
      (fun t => (t.out.hiEvt, t.hi)) = some (.other, State.reset.hi) := by decide
/-- L2-FR-10, byte 9. -/
theorem test_other :
    (receive [0x9B#8, 0x07#8, 0x9B#8, 0x12#8, 0x06#8, 0x5B#8, 0x4F#8, 0x9D#8] 0x9D#8).map
      (fun t => (t.out.pkt.map Packet.payload, t.out.hiEvt)) =
      some (some [0x12#8, 0x06#8, 0x5B#8, 0x4F#8, 0x9D#8], .other) := by decide
/-- L2-HI-1. -/
theorem test_height_reading :
    (receive (heightFrame 0x06#8 0x5B#8 0x4F#8) 0x9D#8).map
      (fun t => (t.out.hiEvt, t.out.activity, t.out.pub, t.hi)) =
      some (.reading, true, some 1230#14,
        { curHeightValid := true, curHeight := 1230#14, lastPubValid := true, lastPub := 1230#14 }) := by decide
/-- L2-HI-2, L2-HI-9 and L2-HI-11. -/
theorem test_height_outcomes :
    height 0x06#8 0xDB#8 0x4F#8 = some (.reading, some 123#14) ∧
    height 0x06#8 0x40#8 0x4F#8 = some (.minus, none) ∧
    height 0x06#8 0x40#8 0x79#8 = some (.invalidDigit, none) := by decide
/-- L2-HI-25: the same height again is an activity and no publish. -/
theorem test_height_again :
    (nextOf (step (given tracking [byteAt 0#32 0x9D#8]))).map
      (fun t => (t.wires.reading.map Reading.changed, t.out.activity, t.out.pub)) =
      some (some false, true, none) := by decide

/-! ### DG: each row in a height broadcast, or alone at a port -/

/-- L2-HI-22: digits 0 1 0. -/
theorem test_digit0_digit1 : height 0x3F#8 0x06#8 0x3F#8 = some (.reading, some 100#14) := by decide
/-- L2-DG-17. -/
theorem test_digit2 :
    (nextOf (exec (decodeDigit defaultSegTable .tens 0xDB#8) State.reset)).map (fun t => t.wires.dgTens) =
      some ⟨.num 2, true⟩ := by decide
/-- L2-DG-6 to L2-DG-8. -/
theorem test_digit3_digit4_digit5 : height 0x4F#8 0x66#8 0x6D#8 = some (.reading, some 3450#14) := by decide
/-- L2-DG-9 to L2-DG-11. -/
theorem test_digit6_digit7_digit8 : height 0x7D#8 0x07#8 0x7F#8 = some (.reading, some 6780#14) := by decide
/-- L2-HI-18. -/
theorem test_digit9 : height 0x6F#8 0xEF#8 0x6F#8 = some (.reading, some 999#14) := by decide
/-- L2-HI-13: a Minus hundreds digit. -/
theorem test_digitMinus : height 0x40#8 0x3F#8 0x3F#8 = some (.nonnumeric, none) := by decide
/-- L2-HI-4 and L2-HI-14: a Blank hundreds digit counts as 0, a Blank tens digit does not. -/
theorem test_digitBlank :
    height 0x00#8 0xDB#8 0x4F#8 = some (.reading, some 23#14) ∧
    height 0x06#8 0x00#8 0x4F#8 = some (.nonnumeric, none) := by decide
/-- L2-HI-12. -/
theorem test_digitInvalid : height 0x79#8 0x3F#8 0x3F#8 = some (.invalidDigit, none) := by decide

/-! ### PS -/

/-- L2-PS-1 and L2-PS-2: the boot delay is strict. -/
theorem test_boot :
    (nextOf (step (given State.reset [tickAt 1000#32]))).map (fun t => t.out.psEvt) = some .none ∧
    (nextOf (step (given State.reset [tickAt 1001#32]))).map
      (fun t => (t.out.psEvt, t.ps.lastPollTime, t.out.txReq)) =
      some (.bootToIdle, 1001#32, some .wake) := by decide
/-- L2-PS-3 and L2-PS-4: the idle interval is not. -/
theorem test_idle_poll :
    (nextOf (step (given (scheduler .idle 1001#32 0#32) [tickAt 6000#32]))).map (fun t => t.out.psEvt) =
      some .none ∧
    (nextOf (step (given (scheduler .idle 1001#32 0#32) [tickAt 6001#32]))).map
      (fun t => (t.out.psEvt, t.ps.lastPollTime, t.out.txReq)) =
      some (.idlePoll, 6001#32, some .silent) := by decide
/-- L2-PS-7: a changed reading goes before the poll that is due. -/
theorem test_idle_to_active :
    (nextOf (step (given { holding (heightFrame 0x06#8 0x5B#8 0x66#8) with
        ps := (scheduler .idle 1001#32 0#32).ps, hi := tracking.hi } [byteAt 6001#32 0x9D#8]))).map
      (fun t => (t.ps.psState, t.out.psEvt, t.out.txReq, t.ps.lastPollTime)) =
      some (.active, .idleToActive, none, 1001#32) := by decide
/-- L2-PS-8 and L2-PS-9: the activity timeout is strict. -/
theorem test_active_timeout :
    (nextOf (step (given (scheduler .active 11900#32 10000#32) [tickAt 12000#32]))).map
      (fun t => (t.ps.psState, t.out.psEvt)) = some (.active, .none) ∧
    (nextOf (step (given (scheduler .active 11900#32 10000#32) [tickAt 12001#32]))).map
      (fun t => (t.ps.psState, t.out.psEvt, t.out.txReq, t.ps.lastPollTime)) =
      some (.idle, .activeToIdle, none, 11900#32) := by decide
/-- Program P3, t = 2009. -/
theorem test_active_poll :
    (nextOf (step (given (scheduler .active 1001#32 2008#32) [tickAt 2009#32]))).map
      (fun t => (t.out.psEvt, t.ps.lastPollTime, t.out.txReq)) =
      some (.activePoll, 2009#32, some .silent) := by decide
/-- L1-8 and L2-PS-12: elapsed time across a wrap of the clock. -/
theorem test_elapsed_wraps :
    elapsed 0x00000100#32 0xFFFFFF00#32 = 512#32 ∧ elapsed 0x80#32 0xFFFFFF80#32 = 0x100#32 := by decide

/-! ### TX -/

/-- L2-TX-1, step n: PS's request is taken in its own step. -/
theorem test_cmdWake :
    (nextOf (step (given State.reset [tickAt 1001#32]))).map (fun t => (t.tx, t.wires.txSent)) =
      some ({ txBusy := true, txSel := .wake, txIdx := 0#3 }, none) := by decide
/-- L2-TX-2, step n. -/
theorem test_cmdSilent :
    (nextOf (step (given (scheduler .idle 1001#32 0#32) [tickAt 6001#32]))).map (fun t => t.tx) =
      some { txBusy := true, txSel := .silent, txIdx := 0#3 } := by decide
/-- L2-TX-4 and L2-TX-5. -/
theorem test_handshake :
    (levels false (sending .silent 5#3)).txData = 0x6C#8 ∧
    (nextOf (step (given (sending .silent 7#3) [tickAt 1010#32]))).map (fun t => (t.wires.txSent, t.tx)) =
      some (some 0x9D#8, { txBusy := false, txSel := .silent, txIdx := 0#3 }) := by decide
/-- L2-TX-3, t = 1003: without `tx_ready` nothing is sent. -/
theorem test_handshake_waits :
    (nextOf (step (given (sending .wake 1#3) [{ tickAt 1003#32 with txReady := false }]))).map
      (fun t => (t.wires.txSent, t.tx.txIdx)) = some (none, 1#3) := by decide

/-! ### Reset -/

/-- L2-RST-2, the reset step, with the byte of L2-RST-1. -/
theorem test_reset_step :
    (nextOf (step (given (sending .wake 5#3) [resetAt 1007#32]))).map
      (fun t => (t.fr.cursor, t.ps, t.tx.txBusy, t.tx.txIdx, t.wires.txSent)) =
      some (0#5,
        { psState := .bootWait, bootTime := 1007#32, lastPollTime := 1007#32, lastActivityTime := 1007#32 },
        false, 0#3, none) := by decide
/-- An empty input list: the clock stands still (log 1). -/
theorem test_stopped_clock : nextOf (step State.reset) = some State.reset := by decide

/-! ### Witnesses: states and operands that meet the hypotheses of each statement together, one for each clause, at the
bounds of its range -/

/-- A frame of length byte `L` in the buffer, all bytes but its last, with zeros for its type and payload. -/
def openFrame (len : Byte) : State := holding (0x9B#8 :: len :: List.replicate (len.toNat - 1) 0#8)

theorem witness_DecodeInvertsEncode :
    defaultSegTable.wf ∧ (Instr.lenOk 30#8).wf defaultSegTable = true ∧
    (Instr.msgOther 0x55#8 2#8 []).wf defaultSegTable = true ∧
    (Instr.digitInvalid .ones true 0x79#7).wf defaultSegTable = true ∧
    (Instr.noise 0x9D#8).wf defaultSegTable = true ∧ (Instr.badEnd 0#8).wf defaultSegTable = true := by decide

theorem witness_EncodeInvertsDecode :
    decode defaultSegTable (.message 30#8) (0x12#8 :: List.replicate 28 0#8) =
      .ok (.msgHeightBadlen 30#8 (List.replicate 28 0#8)) ∧
    decode defaultSegTable .command (cmdBytes .silent) = .ok .cmdSilent := ⟨rfl, rfl⟩

theorem witness_StartByteBeginsFrame :
    (Instr.start9b = .start9b ∧ (0x9B#8 : Byte) = 0x9B#8) ∧ (Instr.start98 = .start98 ∧ (0x98#8 : Byte) = 0x98#8) ∧
    State.reset.fr.cursor = 0#5 ∧ Memory.wf State.reset.fr.buf := by decide

theorem witness_NoiseIsDropped :
    State.reset.fr.cursor = 0#5 ∧ (0x9D#8 : Byte) ≠ 0x9B#8 ∧ (0x9D#8 : Byte) ≠ 0x98#8 := by decide

theorem witness_DataByteIsStored :
    let s := holding [0x9B#8, 0x02#8]
    2 ≤ s.fr.cursor.toNat ∧ s.fr.cursor.toNat + 1 ≠ (readByte s.fr.buf 1).toNat + 2 ∧ Memory.wf s.fr.buf := by decide

/-- The 32nd byte, with the shortest length that overflows. -/
theorem witness_DataByteIsStored_overflow :
    let s := holding (0x9B#8 :: 31#8 :: List.replicate 29 0#8)
    2 ≤ s.fr.cursor.toNat ∧ s.fr.cursor.toNat + 1 ≠ (readByte s.fr.buf 1).toNat + 2 ∧ Memory.wf s.fr.buf ∧
    s.fr.cursor.toNat = 31 := by decide

theorem witness_LengthByteIsStored :
    (holding [0x98#8]).fr.cursor = 1#5 ∧ Memory.wf (holding [0x98#8]).fr.buf ∧
    (2 ≤ (2#8 : Byte).toNat ∧ (2#8 : Byte).toNat ≤ 30) ∧ (2 ≤ (30#8 : Byte).toNat ∧ (30#8 : Byte).toNat ≤ 30) ∧
    31 ≤ (31#8 : Byte).toNat ∧ 31 ≤ (255#8 : Byte).toNat := by decide

theorem witness_ZeroLengthIsBadEnd :
    (holding [0x9B#8]).fr.cursor = 1#5 ∧ Memory.wf (holding [0x9B#8]).fr.buf := by decide

theorem witness_EndByteCompletesFrame_one :
    let s := openFrame 1#8
    2 ≤ s.fr.cursor.toNat ∧ s.fr.cursor.toNat + 1 = (readByte s.fr.buf 1).toNat + 2 ∧ Memory.wf s.fr.buf ∧
    (readByte s.fr.buf 1).toNat = 1 := by decide

theorem witness_EndByteCompletesFrame_two :
    let s := openFrame 2#8
    2 ≤ s.fr.cursor.toNat ∧ s.fr.cursor.toNat + 1 = (readByte s.fr.buf 1).toNat + 2 ∧ Memory.wf s.fr.buf ∧
    (readByte s.fr.buf 1).toNat ≠ 1 := by decide

theorem witness_EndByteCompletesFrame_thirty :
    let s := openFrame 30#8
    2 ≤ s.fr.cursor.toNat ∧ s.fr.cursor.toNat + 1 = (readByte s.fr.buf 1).toNat + 2 ∧ Memory.wf s.fr.buf ∧
    s.fr.cursor.toNat = 31 := by decide

theorem witness_WrongEndByteDiscardsFrame :
    let s := openFrame 1#8
    (0x9B#8 : Byte) ≠ 0x9D#8 ∧ 2 ≤ s.fr.cursor.toNat ∧
    s.fr.cursor.toNat + 1 = (readByte s.fr.buf 1).toNat + 2 ∧ Memory.wf s.fr.buf := by decide

theorem witness_FrameStepFollowsRules :
    Memory.wf (openFrame 30#8).fr.buf ∧ (openFrame 30#8).out.pkt = none := by decide

theorem witness_ReceiverWaitsForAByte :
    (given (openFrame 7#8) [tickAt 0#32]).inputs = [tickAt 0#32] ∧ (tickAt 0#32).rxValid = false ∧
    (given (openFrame 7#8) [resetAt 0#32]).inputs = [resetAt 0#32] ∧ (resetAt 0#32).rst = true := by decide

theorem witness_DeliveredPacketIsValid :
    Inv (openFrame 2#8) ∧
    (given (openFrame 2#8) [byteAt 0#32 0x9D#8]).inputs = [byteAt 0#32 0x9D#8] ∧
    (receive [0x9B#8, 2#8, 0#8] 0x9D#8).map (fun t => t.out.pkt.isSome) = some true := by decide

theorem witness_IgnoredMessagesSetOnlyTheirCode :
    (Instr.msgHeartbeat 2#8 [] = .msgHeartbeat 2#8 [] ∧ HiEvt.heartbeat = .heartbeat) ∧
    (Instr.msgHeightBadlen 2#8 [] = .msgHeightBadlen 2#8 [] ∧ HiEvt.other = .other) ∧
    (Instr.msgOther 0x10#8 2#8 [] = .msgOther 0x10#8 2#8 [] ∧ HiEvt.other = .other) := by decide

/-- Lengths 2 and 30 for a heartbeat, 7 for a height broadcast, 6 and 8 for type 0x12, type 0x13. -/
theorem witness_MessageClassByTypeAndLength :
    deliverable 2#8 [] = true ∧ deliverable 30#8 (List.replicate 28 0#8) = true ∧
    deliverable 7#8 (List.replicate 5 0#8) = true ∧ deliverable 6#8 (List.replicate 4 0#8) = true ∧
    deliverable 8#8 (List.replicate 6 0#8) = true ∧ (0x13#8 : Byte) ≠ 0x11#8 ∧ (0x13#8 : Byte) ≠ 0x12#8 := by decide

/-- Digits 0 0 1 with a Blank hundreds digit, a first reading. -/
theorem witness_ReadingIsCommitted_blank :
    segRom defaultSegTable ((0x80#8 : Byte).setWidth 7) = .blank ∧ (0 : Fin 10) = 0 ∧
    segRom defaultSegTable ((0x3F#8 : Byte).setWidth 7) = .num 0 ∧
    segRom defaultSegTable ((0x06#8 : Byte).setWidth 7) = .num 1 ∧
    ¬((0 : Fin 10) = 0 ∧ (0 : Fin 10) = 0 ∧ (1 : Fin 10) = 0) ∧ State.reset.hi.lastPubValid = false := by decide

/-- Digits 9 9 9, the largest reading, and 1 2 3, one that is equal to the last published. -/
theorem witness_ReadingIsCommitted_num :
    segRom defaultSegTable ((0x6F#8 : Byte).setWidth 7) = .num 9 ∧
    ¬((9 : Fin 10) = 0 ∧ (9 : Fin 10) = 0 ∧ (9 : Fin 10) = 0) ∧
    segRom defaultSegTable ((0x06#8 : Byte).setWidth 7) = .num 1 ∧
    segRom defaultSegTable ((0x5B#8 : Byte).setWidth 7) = .num 2 ∧
    segRom defaultSegTable ((0x4F#8 : Byte).setWidth 7) = .num 3 ∧
    tracking.hi.lastPubValid = true ∧ tracking.hi.lastPub = 1230#14 := by decide

/-- A frame with an FR event: its last byte is the wrong end byte. -/
theorem witness_EveryFrameEventEndsTheFrame :
    (given (openFrame 30#8) [byteAt 0#32 0#8]).inputs = [byteAt 0#32 0#8] ∧ (byteAt 0#32 0#8).rst = false ∧
    (receive [0x9B#8, 1#8] 0#8).map (fun t => t.out.frEvt) = some .badEnd := by decide

/-- A step with an activity signal, and one without. -/
theorem witness_ActivityRefreshesTimer :
    (given tracking [byteAt 5#32 0x9D#8]).inputs = [byteAt 5#32 0x9D#8] ∧ (byteAt 5#32 0x9D#8).rst = false ∧
    ((nextOf (step (given tracking [byteAt 5#32 0x9D#8]))).map fun t => t.out.activity) = some true ∧
    ((nextOf (step (given tracking [tickAt 5#32]))).map fun t => t.out.activity) = some false := by decide

theorem witness_SchedulerTransitions :
    (given (scheduler .active 0#32 0#32) [tickAt 5#32]).inputs = [tickAt 5#32] ∧ (tickAt 5#32).rst = false ∧
    (resetAt 5#32).rst = true := by decide

theorem witness_StepExecutesReceivedByte :
    (given tracking [byteAt 5#32 0x9D#8]).inputs = byteAt 5#32 0x9D#8 :: [] ∧ (byteAt 5#32 0x9D#8).rst = false ∧
    (byteAt 5#32 0x9D#8).rxValid = true ∧ (tickAt 5#32).rst = false ∧ (tickAt 5#32).rxValid = false := by decide

/-- A step without reset, with a Packet that is ignored. -/
theorem witness_IgnoredPacketChangesNothing :
    (given tracking [byteAt 0#32 0x9D#8]).inputs = [byteAt 0#32 0x9D#8] ∧ (byteAt 0#32 0x9D#8).rst = false ∧
    (byteAt 0#32 0x9D#8).rxValid = true ∧ (tickAt 0#32).rxValid = false ∧
    (height 0x06#8 0x40#8 0x4F#8).map Prod.fst = some .minus := by decide

theorem witness_DigitRowsShowTheirDigit :
    (Instr.digit0 .tens true = .digit0 .tens true ∧ Digit.num 0 = .num 0) ∧
    (Instr.digitInvalid .ones false 0x79#7 = .digitInvalid .ones false 0x79#7 ∧ Digit.invalid = .invalid) := by decide

theorem witness_SegRomFollowsTable :
    defaultSegTable.wf ∧ (0x79#7 : Pattern) ≠ 0#7 ∧ (0x79#7 : Pattern) ∉ defaultSegTable.toList := by decide

/-- The boot delay exceeded by one, with TX free, and only reached. -/
theorem witness_BootWaitStepFollowsRule :
    State.reset.ps.psState = .bootWait ∧
    (State.reset.cfg.bootDelay < elapsed 1001#32 State.reset.ps.bootTime ∧ State.reset.tx.txBusy = false) ∧
    ¬(State.reset.cfg.bootDelay < elapsed 1000#32 State.reset.ps.bootTime) ∧
    (given State.reset [tickAt 1001#32]).inputs = [tickAt 1001#32] ∧ (tickAt 1001#32).rst = false := by decide

/-- The idle interval reached, and not yet; a changed reading is in `test_idle_to_active`. -/
theorem witness_IdleStepFollowsRule :
    let s := scheduler .idle 1001#32 0#32
    s.ps.psState = .idle ∧ s.tx.txBusy = false ∧
    s.cfg.idleInterval ≤ elapsed 6001#32 s.ps.lastPollTime ∧
    ¬(s.cfg.idleInterval ≤ elapsed 6000#32 s.ps.lastPollTime) := by decide

/-- The timeout exceeded by one and only reached; the active interval reached and not yet. -/
theorem witness_ActiveStepFollowsRule :
    let s := scheduler .active 11900#32 10000#32
    s.ps.psState = .active ∧ s.tx.txBusy = false ∧
    s.cfg.activityTimeout < elapsed 12001#32 s.ps.lastActivityTime ∧
    ¬(s.cfg.activityTimeout < elapsed 12000#32 s.ps.lastActivityTime) ∧
    ¬(s.cfg.activeInterval ≤ elapsed 12000#32 s.ps.lastPollTime) ∧
    s.cfg.activeInterval ≤ elapsed 12000#32 11800#32 := by decide

theorem witness_RequestsWaitForTransmitter :
    (given (sending .wake 0#3) [tickAt 9000#32]).tx.txBusy = true ∧ (tickAt 9000#32).rst = false ∧
    ((nextOf (step (given State.reset [tickAt 1001#32]))).map fun t => t.out.txReq) = some (some .wake) := by decide

theorem witness_LongestBootDelayNeverEnds :
    let s := given { State.reset with cfg := { resetCfg with bootDelay := 0xFFFFFFFF#32 } }
      [tickAt 0#32, tickAt 0xFFFFFFFF#32]
    s.inputs = [tickAt 0#32, tickAt 0xFFFFFFFF#32] ∧ NoReset s.inputs ∧ s.ps.psState = .bootWait ∧
    s.cfg.bootDelay = 0xFFFFFFFF#32 ∧ s.tx.txBusy = false := by decide

theorem witness_LongestTimeoutNeverEnds :
    let s := given { scheduler .active 0#32 0#32 with cfg := { resetCfg with activityTimeout := 0xFFFFFFFF#32 } }
      [tickAt 0#32, tickAt 0xFFFFFFFF#32]
    s.inputs = [tickAt 0#32, tickAt 0xFFFFFFFF#32] ∧ NoReset s.inputs ∧ s.ps.psState = .active ∧
    s.cfg.activityTimeout = 0xFFFFFFFF#32 := by decide

theorem witness_CommandIsAccepted :
    (Instr.cmdWake = .cmdWake ∧ Variant.wake = .wake) ∧ (Instr.cmdSilent = .cmdSilent ∧ Variant.silent = .silent) := by
  decide

/-- The last byte and another, taken and held. -/
theorem witness_HandshakeSendsOneByte :
    (given (sending .silent 7#3) [tickAt 0#32]).inputs = [tickAt 0#32] ∧ (tickAt 0#32).rst = false ∧
    (sending .silent 7#3).tx.txBusy = true ∧ (tickAt 0#32).txReady = true ∧
    (sending .wake 6#3).tx.txBusy = true ∧ ({ tickAt 0#32 with txReady := false } : Input).txReady = false := by decide

/-- All eight bytes, in a run with one held handshake. -/
theorem witness_CommandGoesOutWhole :
    let inps := { tickAt 1#32 with txReady := false } :: List.replicate 8 (tickAt 2#32)
    let s := given (sending .wake 0#3) inps
    s.inputs = inps ++ [] ∧ NoReset inps ∧ s.tx = { txBusy := true, txSel := .wake, txIdx := 0#3 } ∧
    readyCount inps ≤ 8 ∧ readyCount inps = 8 := by decide

theorem witness_StepExecutesMessageAndCommand :
    (nextOf (exec .end9d (openFrame 2#8))).map (fun t => t.out.pkt.isSome) = some true ∧
    (poll .idle 0#32 .wake .bootToIdle State.reset).out.txReq = some .wake ∧
    (poll .idle 0#32 .silent .idlePoll State.reset).out.txReq = some .silent ∧
    State.reset.out.pkt = none ∧ State.reset.out.txReq = none := by decide

theorem witness_ResetStepSetsRegisters :
    (given (sending .wake 5#3) [resetAt 1007#32]).inputs = [resetAt 1007#32] ∧ (resetAt 1007#32).rst = true := by decide

theorem witness_ResetOverridesInputs :
    (resetAt 5#32).rst = true ∧ ({ tickAt 5#32 with rst := true } : Input).rst = true ∧
    (resetAt 5#32).nowMs = ({ tickAt 5#32 with rst := true } : Input).nowMs ∧
    resetAt 5#32 ≠ { tickAt 5#32 with rst := true } := by decide

theorem witness_BufferStaysCanonical :
    ∃ t, Memory.wf (openFrame 30#8).fr.buf ∧ step (given (openFrame 30#8) [byteAt 0#32 0x55#8]) = .next t :=
  ⟨_, by decide, rfl⟩

theorem witness_ConfigurationNeverWritten :
    ∃ t, step (given (sending .wake 7#3) [resetAt 0#32, tickAt 1#32]) = .next t := ⟨_, rfl⟩

theorem witness_InvariantKept :
    ∃ t, Inv (given (openFrame 2#8) [byteAt 0#32 0x9D#8]) ∧
      step (given (openFrame 2#8) [byteAt 0#32 0x9D#8]) = .next t :=
  ⟨_, by decide, rfl⟩

theorem witness_ReceptionIsIndependent :
    let s₁ := given tracking [byteAt 0#32 0x9D#8]
    let s₂ := given { tracking with ps := (scheduler .active 7#32 7#32).ps, tx := (sending .wake 3#3).tx }
      [{ byteAt 9#32 0x9D#8 with txReady := false }]
    s₁.inputs = [byteAt 0#32 0x9D#8] ∧ s₂.inputs = [{ byteAt 9#32 0x9D#8 with txReady := false }] ∧
    s₁.fr = s₂.fr ∧ s₁.hi = s₂.hi ∧ s₁.segTable = s₂.segTable ∧ s₁.cfg.activityPolicy = s₂.cfg.activityPolicy ∧
    s₁.ps ≠ s₂.ps ∧ s₁.tx ≠ s₂.tx := by decide

theorem witness_CanonicalBuffersAgree :
    Memory.wf (writeByte (writeByte [] 0 1#8) 31 2#8) ∧ Memory.wf (writeByte (writeByte [] 31 2#8) 0 1#8) ∧
    writeByte (writeByte [] 0 1#8) 31 2#8 = writeByte (writeByte [] 31 2#8) 0 1#8 := by decide

theorem witness_LevelOutputs : (sending .silent 5#3).tx.txBusy = true := by decide

theorem witness_StoppedClockKeepsState : State.reset.inputs = [] := by decide

theorem witness_FrameBytesAreHeld :
    let inps := [byteAt 0#32 0x98#8, tickAt 1#32, byteAt 2#32 2#8, byteAt 3#32 0x55#8]
    let s := given State.reset inps
    s.inputs = inps ++ [] ∧ NoReset inps ∧ s.fr.cursor = 0#5 ∧ Memory.wf s.fr.buf ∧
    received inps = 0x98#8 :: 2#8 :: [0x55#8] ∧ [0x55#8].length < (2#8 : Byte).toNat ∧
    [0x55#8].length + 2 < 32 := by decide

/-- The largest number of bytes that are held, 31. -/
theorem witness_FrameBytesAreHeld_longest :
    let body := List.replicate 29 0x9B#8
    let inps := (0x9B#8 :: 255#8 :: body).map (byteAt 0#32)
    NoReset inps ∧ received inps = 0x9B#8 :: 255#8 :: body ∧ body.length < (255#8 : Byte).toNat ∧
    body.length + 2 < 32 := by decide

/-- The shortest frame and the longest. -/
theorem witness_WholeFrameGivesPacket :
    let inps := [byteAt 0#32 0x98#8, byteAt 0#32 2#8, byteAt 0#32 0x55#8]
    let longest := (0x9B#8 :: 30#8 :: 0x12#8 :: List.replicate 28 0#8).map (byteAt 0#32)
    let s := given State.reset (inps ++ [byteAt 0#32 0x9D#8])
    s.inputs = inps ++ byteAt 0#32 0x9D#8 :: [] ∧ NoReset inps ∧ (byteAt 0#32 0x9D#8).rst = false ∧
    s.fr.cursor = 0#5 ∧ Memory.wf s.fr.buf ∧ received inps = 0x98#8 :: 2#8 :: 0x55#8 :: [] ∧
    ([] : List Byte).length + 2 = (2#8 : Byte).toNat ∧ (byteAt 0#32 0x9D#8).rxValid = true ∧
    NoReset longest ∧ received longest = 0x9B#8 :: 30#8 :: 0x12#8 :: List.replicate 28 0#8 ∧
    (List.replicate 28 (0#8 : Byte)).length + 2 = (30#8 : Byte).toNat ∧ (30#8 : Byte).toNat ≤ 30 := by decide

theorem witness_LongFrameOverflows :
    let body := List.replicate 29 0#8
    let inps := (0x9B#8 :: 31#8 :: body).map (byteAt 0#32)
    let s := given State.reset (inps ++ [byteAt 0#32 0x9D#8])
    s.inputs = inps ++ byteAt 0#32 0x9D#8 :: [] ∧ NoReset inps ∧ (byteAt 0#32 0x9D#8).rst = false ∧
    s.fr.cursor = 0#5 ∧ Memory.wf s.fr.buf ∧ received inps = 0x9B#8 :: 31#8 :: body ∧ body.length = 29 ∧
    31 ≤ (31#8 : Byte).toNat ∧ (byteAt 0#32 0x9D#8).rxValid = true := by decide

/-- The smallest reading, 0 0 1 with the decimal flag; the hypotheses on the frame are those of L1-3's. -/
theorem witness_DigitsRoundTrip :
    let inps := ([0x9B#8, 7#8, 0x12#8, digitByte false (digitPattern defaultSegTable 0),
      digitByte true (digitPattern defaultSegTable 0), digitByte true (digitPattern defaultSegTable 1),
      0x11#8, 0x22#8] : List Byte).map (byteAt 0#32)
    let s := given State.reset (inps ++ [byteAt 0#32 0x9D#8])
    s.inputs = inps ++ byteAt 0#32 0x9D#8 :: [] ∧ NoReset inps ∧ (byteAt 0#32 0x9D#8).rst = false ∧
    s.fr.cursor = 0#5 ∧ Memory.wf s.fr.buf ∧ s.segTable.wf ∧
    received inps = [0x9B#8, 7#8, 0x12#8, digitByte false (digitPattern s.segTable 0),
      digitByte true (digitPattern s.segTable 0), digitByte true (digitPattern s.segTable 1), 0x11#8, 0x22#8] ∧
    (byteAt 0#32 0x9D#8).rxValid = true ∧ (byteAt 0#32 0x9D#8).rxData = 0x9D#8 ∧
    ¬((0 : Fin 10) = 0 ∧ (0 : Fin 10) = 0 ∧ (1 : Fin 10) = 0) := by decide

end Sys2Proof.Tests
end

