-- ==== Sys2Proof/Proofs/State.lean ====
section
/-! PROOFS of the family `10_state`. The level outputs: one equation for each of the five, then the rule. -/

namespace Sys2Proof.Machine

section
variable (rst : Bool) (s : State)

@[simp] theorem levels_txValid : (levels rst s).txValid = (s.tx.txBusy && !rst) := rfl
@[simp] theorem levels_pollState : (levels rst s).pollState = s.ps.psState := rfl
@[simp] theorem levels_heightValid : (levels rst s).heightValid = s.hi.curHeightValid := rfl
@[simp] theorem levels_heightX10 : (levels rst s).heightX10 = s.hi.curHeight := rfl

/-- While TX is busy `tx_data` is the command byte at its index, not the free value of log 9. -/
theorem levels_txData_of_busy (h : s.tx.txBusy = true) :
    (levels rst s).txData = cmdRom s.tx.txSel s.tx.txIdx := if_pos h

end

/-- Settles O52: the five level outputs (10 R37). -/
theorem levelOutputs : Obligations.LevelOutputs := fun rst s =>
  ⟨levels_txValid rst s, levels_txData_of_busy rst s, levels_pollState rst s, levels_heightValid rst s,
    levels_heightX10 rst s⟩

end Sys2Proof.Machine
end

/-! PROOFS of the family `40_digit_decoder`. What `SegRom` holds: an entry other than Invalid stands at its own
pattern, and under a legal segment table no other entry stands there. Then what DG shows for a digit byte. -/

namespace Sys2Proof

open Sys2Proof.Safety

/-! ### The contents of `SegRom` -/

/-- The patterns with an entry other than Invalid: that of Blank, then `SEG_TABLE` (40 R100). -/
def romPatterns (t : SegTable) : List Pattern := 0#7 :: t.toList

/-- A legal segment table gives twelve patterns, each once. -/
theorem nodup_romPatterns {t : SegTable} (hw : t.wf) : (romPatterns t).Nodup :=
  List.nodup_cons.mpr ⟨hw.2, hw.1⟩

/-- The place of an entry in `romPatterns`; Invalid stands after the last. -/
def romPlace : Digit → Nat
  | .blank => 0
  | .num n => n.val + 1
  | .minus => 11
  | .invalid => 12

theorem romPlace_injective : Function.Injective romPlace := by
  intro g g' h
  cases g with
  | num n =>
    cases g' with
    | num m => exact congrArg Digit.num (Fin.ext (Nat.succ.inj h))
    | _ => grind [romPlace]
  | _ =>
    cases g' with
    | num m => grind [romPlace]
    | _ => simp [romPlace] at h ⊢

/-- The pattern of an entry is the one at its place. -/
theorem getElem?_romPlace (t : SegTable) (g : Digit) : (romPatterns t)[romPlace g]? = patternFor t g := by
  cases g with
  | num n =>
    have hn : n.val < t.toList.length := n.isLt.trans (by decide : 10 < 11)
    simp [romPatterns, romPlace, patternFor, digitPattern, hn]
  | minus => rfl
  | blank => rfl
  | invalid => rfl

/-- Under a legal segment table two entries never stand at one pattern. -/
theorem patternFor_inj {t : SegTable} {g g' : Digit} {p : Pattern} (hw : t.wf) (h : patternFor t g = some p)
    (h' : patternFor t g' = some p) : g = g' := by
  rw [← getElem?_romPlace] at h h'
  obtain ⟨hlt, -⟩ := List.getElem?_eq_some_iff.mp h
  exact romPlace_injective ((List.getElem?_inj hlt (nodup_romPatterns hw)).mp (h.trans h'.symm))

/-- One test of `SegRom` fails, and the tests after it answer Invalid. -/
theorem romTest_eq_invalid_iff {p q : Pattern} {g r : Digit} (hg : g ≠ .invalid) :
    (if p = q then g else r) = .invalid ↔ p ≠ q ∧ r = .invalid := by
  by_cases hp : p = q <;> simp [hp, hg]

/-- The entries other than Invalid are at 0 and at the eleven patterns of the table, under every table. -/
theorem segRom_eq_invalid_iff {t : SegTable} {p : Pattern} : segRom t p = .invalid ↔ p ∉ romPatterns t := by
  simp [segRom, romTest_eq_invalid_iff, romPatterns, SegTable.toList]

/-- Under a legal segment table `SegRom` answers the entry whose pattern it is given. -/
theorem segRom_of_patternFor {t : SegTable} {g : Digit} {p : Pattern} (hw : t.wf) (h : patternFor t g = some p) :
    segRom t p = g := by
  have hmem : p ∈ romPatterns t := List.mem_of_getElem? ((getElem?_romPlace t g).trans h)
  have hne : segRom t p ≠ .invalid := fun hi => segRom_eq_invalid_iff.mp hi hmem
  exact patternFor_inj hw (patternFor_segRom hne) h

/-- The pattern 0 is Blank, under every table (40 R100). -/
@[simp] theorem segRom_zero (t : SegTable) : segRom t 0#7 = .blank := if_pos rfl

/-- The code of a numeric digit is its value (40 R100). -/
theorem digitCode_num_toNat (n : Fin 10) : (digitCode (.num n)).toNat = n.val :=
  Nat.mod_eq_of_lt (n.isLt.trans (by decide))

/-- Settles O25: an entry of a legal table is found at its pattern, by `segRom_of_patternFor`. -/
theorem segRomFollowsTable : Obligations.SegRomFollowsTable := by
  refine ⟨fun t hw => ⟨segRom_zero t, fun k => ?_, ?_, fun p hz ht => ?_⟩, digitCode_num_toNat, rfl, rfl, rfl⟩
  · exact segRom_of_patternFor (g := .num k) hw rfl
  · exact segRom_of_patternFor (g := .minus) hw rfl
  · exact segRom_eq_invalid_iff.mpr (List.not_mem_cons_of_ne_of_not_mem hz ht)

end Sys2Proof

namespace Sys2Proof.Machine

open Sys2Proof.Safety

/-! ### What DG shows -/

section
variable (port : Port) (g : DgOut) (s : State)

/-- The port shows the digit, and every other port what it showed. -/
theorem portOf_setPort (q : Port) : portOf (setPort port g s) q = if q = port then g else portOf s q := by
  cases port <;> cases q <;> rfl

@[simp] theorem setPort_reading : (setPort port g s).wires.reading = s.wires.reading := by cases port <;> rfl
@[simp] theorem setPort_txSent : (setPort port g s).wires.txSent = s.wires.txSent := by cases port <;> rfl

/-- Showing a digit at a port changes nothing else. -/
theorem shows_setPort : Shows s (setPort port g s) port g :=
  ⟨(portOf_setPort port g s port).trans (if_pos rfl),
    fun q h => (portOf_setPort port g s q).trans (if_neg h), by simp⟩

end

/-- The row of a digit byte acts as DG does on the byte. -/
theorem exec_decodeDigit (port : Port) (b : Byte) (s : State) :
    exec (decodeDigit s.segTable port b) s = readDigit port b s := by
  rw [readDigit_eq]
  unfold decodeDigit
  split <;> (rename_i h; rw [h]; rfl)

/-- The row of a digit byte shows the entry of its pattern and its decimal-point flag (40 R102, R103). -/
theorem exec_decodeDigit_shows (port : Port) (b : Byte) (s : State) :
    ∃ t, exec (decodeDigit s.segTable port b) s = .next t ∧
      Shows s t port ⟨segRom s.segTable (patternOf b), hasDecimal b⟩ :=
  ⟨_, (exec_decodeDigit port b s).trans (readDigit_eq port b s), shows_setPort port _ s⟩

/-- Bit 7 is no part of the pattern (40 R102). -/
theorem patternOf_xor_bit7 (b : Byte) : patternOf (b ^^^ 0x80#8) = patternOf b := by
  simp [patternOf, BitVec.setWidth_xor]

/-- Settles O24: both bytes have one pattern, and DG shows its entry. -/
theorem digitByteDecodesByRom : Obligations.DigitByteDecodesByRom := by
  intro s port b
  obtain ⟨t, ht, hs⟩ := exec_decodeDigit_shows port (b ^^^ 0x80#8) s
  rw [patternOf_xor_bit7] at hs
  exact ⟨exec_decodeDigit_shows port b s, ⟨t, _, ht, hs⟩, segRom_zero s.segTable⟩

end Sys2Proof.Machine

/-! PROOFS of the family `41_frame_receiver`. One equation per branch of `frStep`, the rules as one function
(41 R126); then each outcome of FR on a byte is the result of the branch that its hypotheses select. -/

namespace Sys2Proof.Machine

open Sys2Proof.Safety

/-! ### The rules of FR, one equation per branch -/

section
variable {c : Nat} {m : Memory} {b : Byte}

/-- R122: a start byte in scanning. -/
theorem frStep_start (hb : b = 0x9B#8 ∨ b = 0x98#8) : frStep 0 m b = ⟨1, writeByte m 0 b, .none, none⟩ := by
  rw [frStep, if_pos rfl, if_pos hb]

/-- R122: any other byte in scanning is dropped. -/
theorem frStep_noise (h9 : b ≠ 0x9B#8) (h8 : b ≠ 0x98#8) : frStep 0 m b = ⟨0, m, .none, none⟩ := by
  rw [frStep, if_pos rfl, if_neg (not_or_intro h9 h8)]

/-- R124: a wrong byte at the expected length. -/
theorem frStep_badEnd (hc : c ≠ 0) (he : c + 1 = (readByte (writeByte m c b) 1).toNat + 2) (hb : b ≠ 0x9D#8) :
    frStep c m b = ⟨0, writeByte m c b, .badEnd, none⟩ := by
  simp only [frStep, if_neg hc, if_pos he, if_pos hb]

/-- R124: the end byte of a frame without a type byte. -/
theorem frStep_badLength (hc : c ≠ 0) (he : c + 1 = (readByte (writeByte m c 0x9D#8) 1).toNat + 2)
    (hl : (readByte (writeByte m c 0x9D#8) 1).toNat < 2) :
    frStep c m 0x9D#8 = ⟨0, writeByte m c 0x9D#8, .badLength, none⟩ := by
  simp only [frStep, if_neg hc, if_pos he, if_neg (not_not_intro rfl), if_pos hl]

/-- R124: the end byte of a valid frame; the Packet is that of the complete frame in the buffer. -/
theorem frStep_packet (hc : c ≠ 0) (he : c + 1 = (readByte (writeByte m c 0x9D#8) 1).toNat + 2)
    (hl : 2 ≤ (readByte (writeByte m c 0x9D#8) 1).toNat) :
    frStep c m 0x9D#8 =
      ⟨0, writeByte m c 0x9D#8, .packet, some (packetOf (writeByte m c 0x9D#8))⟩ := by
  simp only [frStep, if_neg hc, if_pos he, if_neg (not_not_intro rfl), if_neg (Nat.not_lt.mpr hl)]
  rfl

/-- R125: the last byte of the buffer, with the frame not complete. -/
theorem frStep_overflow (he : 31 + 1 ≠ (readByte (writeByte m 31 b) 1).toNat + 2) :
    frStep 31 m b = ⟨0, writeByte m 31 b, .overflow, none⟩ := by
  simp only [frStep, if_neg he, if_pos, OfNat.ofNat_ne_zero, if_false]

/-- R123: a byte of a frame that is not its last. -/
theorem frStep_advance (hc : c ≠ 0) (he : c + 1 ≠ (readByte (writeByte m c b) 1).toNat + 2) (hlt : c < 31) :
    frStep c m b = ⟨c + 1, writeByte m c b, .none, none⟩ := by
  simp only [frStep, if_neg hc, if_neg he, if_neg (show c + 1 ≠ 32 by omega)]

end

/-! ### The outcomes of FR -/

/-- A byte stored after the length byte leaves the length as it was. -/
theorem readByte_one_writeByte {m : Memory} {c : Nat} (b : Byte) (hc : 2 ≤ c) :
    readByte (writeByte m c b) 1 = readByte m 1 :=
  readByte_writeByte_other b (by omega)

/-- The length that the rules test after an append is not reached when the byte completes no frame. At index 1
that length is the byte itself, which is not 0; later it is the length byte stored before. -/
theorem not_complete_of_append {s : State} {b : Byte} (hm : Memory.wf s.fr.buf) (h0 : s.fr.cursor ≠ 0#5)
    (hlen : 2 ≤ s.fr.cursor.toNat → s.fr.cursor.toNat + 1 ≠ (readByte s.fr.buf 1).toNat + 2)
    (hzero : s.fr.cursor = 1#5 → b ≠ 0#8) :
    s.fr.cursor.toNat + 1 ≠ (readByte (writeByte s.fr.buf s.fr.cursor.toNat b) 1).toNat + 2 := by
  by_cases h1 : s.fr.cursor = 1#5
  · have hb : b.toNat ≠ 0 := fun h => hzero h1 (BitVec.eq_of_toNat_eq h)
    rw [h1, show (1#5).toNat = 1 from rfl, readByte_writeByte_same 1 b hm]
    omega
  · have h2 : 2 ≤ s.fr.cursor.toNat := by
      have h0' : s.fr.cursor.toNat ≠ 0 := BitVec.toNat_ne.mp h0
      have h1' : s.fr.cursor.toNat ≠ 1 := BitVec.toNat_ne.mp h1
      omega
    rw [readByte_one_writeByte b h2]
    exact hlen h2

/-- What the rules of FR speak of, taken from a state after the byte. -/
def frResult (t : State) : FrResult := ⟨t.fr.cursor.toNat, t.fr.buf, t.out.frEvt, t.out.pkt⟩

/-- Every outcome of FR on a byte is the result of the rules. -/
theorem FrOutcome.frStep_eq {s t : State} {b : Byte} (h : FrOutcome s b t) (hm : Memory.wf s.fr.buf)
    (hp : s.out.pkt = none) : frStep s.fr.cursor.toNat s.fr.buf b = frResult t := by
  cases h with
  | start h0 hb =>
    rw [h0, show (0#5).toNat = 0 from rfl, frStep_start hb]
    simp [frResult, startFrame, hp]
  | noise h0 h9 h8 =>
    rw [h0, show (0#5).toNat = 0 from rfl, frStep_noise h9 h8]
    simp [frResult, h0, hp]
  | accumulate h0 hlen hzero =>
    have he := not_complete_of_append hm h0 hlen hzero
    rcases accumulate_cases s b with ⟨hc, ha⟩ | ⟨hc, ha⟩
    · rw [ha, hc, frStep_overflow (hc ▸ he)]
      simp [frResult, hp]
    · rw [ha, frStep_advance (fun h => h0 (BitVec.eq_of_toNat_eq h)) he hc]
      have hmod : (s.fr.cursor.toNat + 1) % 32 = s.fr.cursor.toNat + 1 := Nat.mod_eq_of_lt (by omega)
      simp [frResult, hp, hmod]
  | zeroLength h1 hb =>
    have he : 1 + 1 = (readByte (writeByte s.fr.buf 1 b) 1).toNat + 2 := by
      rw [readByte_writeByte_same 1 b hm, hb]; rfl
    rw [h1, show (1#5).toNat = 1 from rfl, frStep_badEnd one_ne_zero he (by rw [hb]; decide)]
    simp [frResult, appendByte, h1, hp]
  | badEnd h2 he hb =>
    rw [← readByte_one_writeByte b h2] at he
    rw [frStep_badEnd (by omega) he hb]
    simp [frResult, appendByte, hp]
  | badLength h2 he hl hb =>
    subst hb
    rw [← readByte_one_writeByte _ h2] at he hl
    rw [frStep_badLength (by omega) he hl]
    simp [frResult, appendByte, hp]
  | packet h2 he hl hb =>
    subst hb
    rw [← readByte_one_writeByte _ h2] at he hl
    rw [frStep_packet (by omega) he hl]
    rfl

/-- Settles O14: the class of the byte executes with an outcome of FR, which is the result of the rules. -/
theorem frameStepFollowsRules : Obligations.FrameStepFollowsRules := by
  intro s b hm hp
  obtain ⟨t, hexec, hout⟩ := exec_frameByte s b
  rw [hout.frStep_eq hm hp]
  exact ⟨t, hexec, rfl, rfl, rfl, rfl, hout.sameOutside⟩

/-- Settles O7: NOISE clears FR's event and writes nothing else. -/
theorem noiseIsDropped : Obligations.NoiseIsDropped := fun s _ h0 h9 h8 =>
  ⟨setFrEvt .none s, rfl, setFrEvt_fr s .none, rfl, rfl, (FrOutcome.noise h0 h9 h8).sameOutside⟩

end Sys2Proof.Machine

/-! PROOFS of the family `42_height_interpreter`. One equation per branch of DISPATCH; what the result of a height
broadcast does to the state; then the chain of R159 as one expression, and the reading as one equation. -/

namespace Sys2Proof.Machine

open Sys2Proof.Safety

/-! ### DISPATCH (42 R151) -/

section
variable {len type : Byte} {payload : List Byte}

/-- The heartbeat test does not look at the length. -/
theorem decodeMessage_heartbeat (ht : type = typeHeartbeat) :
    decodeMessage len type payload = .msgHeartbeat len payload :=
  if_pos ht

/-- A deliverable Packet of length 7 has five payload bytes. -/
theorem payload_eq_five_of_deliverable (hd : deliverable heightLength payload = true) :
    ∃ h t o r3 r4, payload = [h, t, o, r3, r4] := by
  have hlen : payload.length = 5 := Nat.add_right_cancel (Laws.deliverable_length hd)
  match payload, hlen with
  | [h, t, o, r3, r4], _ => exact ⟨h, t, o, r3, r4, rfl⟩

/-- A Packet that is no heartbeat and no height broadcast of length 7 is of one of the two classes whose code is
OTHER. -/
theorem decodeMessage_other (hb : type ≠ typeHeartbeat) (hh : ¬(type = typeHeight ∧ len = heightLength)) :
    decodeMessage len type payload = .msgHeightBadlen len payload ∨
      decodeMessage len type payload = .msgOther type len payload := by
  unfold decodeMessage
  rw [if_neg hb]
  by_cases ht : type = typeHeight
  · exact .inl (by rw [if_pos ht, if_neg fun hl => hh ⟨ht, hl⟩])
  · exact .inr (if_neg ht)

end

/-- Setting `hi_evt` writes nothing outside HI. -/
theorem sameOutsideHi_setHiEvt (e : HiEvt) (s : State) : SameOutsideHi s (setHiEvt e s) := by
  simp [SameOutsideHi]

/-- Settles O19: the three branches of DISPATCH, the last one executed. -/
theorem messageClassByTypeAndLength : Obligations.MessageClassByTypeAndLength := by
  rintro ⟨_, len, type, payload, _⟩ hd
  refine ⟨decodeMessage_heartbeat, ?_, fun hb hh s => ?_⟩
  · rintro rfl rfl
    obtain ⟨h, t, o, r3, r4, rfl⟩ := payload_eq_five_of_deliverable hd
    exact ⟨h, t, o, r3, r4, rfl, rfl⟩
  · have hexec : exec (decodeMessage len type payload) s = .next (setHiEvt .other s) := by
      rcases decodeMessage_other (payload := payload) hb hh with h | h <;> rw [h] <;> rfl
    exact ⟨_, hexec, rfl, rfl, sameOutsideHi_setHiEvt .other s⟩

/-! ### The result of a height broadcast -/

/-- The code that a result gives `hi_evt`. -/
def HeightResult.evt : HeightResult → HiEvt
  | .ignored e => e
  | .reading _ => .reading

/-- No register of HI, no activity signal, no publish strobe and no reading differs (42 R163). -/
def HiKept (s t : State) : Prop :=
  t.hi = s.hi ∧ t.out.activity = s.out.activity ∧ t.out.pub = s.out.pub ∧ t.wires.reading = s.wires.reading

theorem hiKept_setHiEvt (e : HiEvt) (s : State) : HiKept s (setHiEvt e s) := ⟨rfl, rfl, rfl, rfl⟩

section
variable (r : HeightResult) (h t o : Byte) (s : State)

theorem applyHeight_hiEvt : (applyHeight r s).out.hiEvt = r.evt := by
  cases r <;> rfl

/-- A height broadcast writes nothing outside HI and the ports of `SegRom`. -/
theorem sameOutsideHi_applyHeight : SameOutsideHi s (applyHeight r (withDigits h t o s)) := by
  cases r with
  | ignored e => exact sameOutsideHi_setHiEvt e (withDigits h t o s)
  | reading v => simp [SameOutsideHi, applyHeight, readingOut, withDigits]

variable {r}

/-- A height broadcast that is no reading sets its code only (42 R163). -/
theorem hiKept_applyHeight (hr : r.evt ≠ .reading) : HiKept s (applyHeight r (withDigits h t o s)) := by
  cases r with
  | ignored e => exact hiKept_setHiEvt e (withDigits h t o s)
  | reading v => exact absurd rfl hr

end

/-! ### The order of the outcomes (42 R159) -/

section
variable (dh dt dO : Digit) (d : Bool)

/-- Steps 4 to 7: the code is the first of these that applies. -/
theorem evt_judgeDigits :
    (judgeDigits dh dt dO d).evt =
      if dh = .invalid ∨ dt = .invalid ∨ dO = .invalid then .invalidDigit
      else if dh = .num 0 ∧ dt = .num 0 ∧ dO = .num 0 then .allZero
      else if dt = .minus then .minus
      else if (digitValue dh).isSome ∧ (digitValue dt).isSome ∧ (digitValue dO).isSome then .reading
      else .nonnumeric := by
  simp only [judgeDigits, apply_ite HeightResult.evt]
  cases digitValue dh <;> cases digitValue dt <;> cases digitValue dO <;> rfl

/-- Step 2 comes before them, and step 3 leaves them the hundreds digit. -/
theorem evt_judgeHeight :
    (judgeHeight dh dt dO d).evt =
      if dh = .blank ∧ dt = .blank ∧ dO = .blank then .allBlank
      else (judgeDigits (blankHundreds dh) dt dO d).evt := by
  unfold judgeHeight
  rw [apply_ite HeightResult.evt]
  rfl

end

/-- Settles O20: the code is that of the judged digits, and only a reading commits. -/
theorem heightOutcomeInOrder : Obligations.HeightOutcomeInOrder := by
  intro s bh bt bo r3 r4
  refine ⟨_, execMsgHeight_eq bh bt bo r3 r4 s, ?_, fun hne => ?_, sameOutsideHi_applyHeight _ bh bt bo s⟩
  · rw [applyHeight_hiEvt, evt_judgeHeight, evt_judgeDigits]
    rfl
  · rw [applyHeight_hiEvt] at hne
    exact hiKept_applyHeight bh bt bo s hne

/-! ### A reading (42 R157, R160 to R162) -/

section
variable {dh dt dO : Digit} {x y z : Fin 10}

/-- A hundreds digit that counts as `x`: `Num(x)`, or Blank for 0 (42 R155). -/
theorem blankHundreds_eq_num (hx : dh = .num x ∨ (dh = .blank ∧ x = 0)) : blankHundreds dh = .num x := by
  rcases hx with rfl | ⟨rfl, rfl⟩
  · exact if_neg Digit.noConfusion
  · exact if_pos rfl

/-- Numeric digits that are not all 0 give a reading. -/
theorem judgeDigits_num (d : Bool) (hne : ¬(x = 0 ∧ y = 0 ∧ z = 0)) :
    judgeDigits (.num x) (.num y) (.num z) d = .reading (readingValue (rawHeight x y z) d) := by
  simp [judgeDigits, digitValue, hne]

theorem judgeHeight_num (d : Bool) (hx : dh = .num x ∨ (dh = .blank ∧ x = 0)) (hy : dt = .num y)
    (hz : dO = .num z) (hne : ¬(x = 0 ∧ y = 0 ∧ z = 0)) :
    judgeHeight dh dt dO d = .reading (readingValue (rawHeight x y z) d) := by
  rw [judgeHeight, if_neg (by simp [hy]), blankHundreds_eq_num hx, hy, hz, judgeDigits_num d hne]

end

section
variable {r : HiRegs} {v : Height}

/-- A value that is not 0 is published when it is the first or differs from the last (42 R162). -/
theorem publishFlag_eq_true_iff (hv : 0 < v.toNat) :
    publishFlag r v = true ↔ r.lastPubValid = false ∨ v ≠ r.lastPub := by
  simp [publishFlag, BitVec.lt_def, hv]

theorem committedHi_of_publish (h : publishFlag r v = true) : committedHi r v = ⟨true, v, true, v⟩ := if_pos h

theorem committedHi_of_not_publish (h : publishFlag r v ≠ true) :
    committedHi r v = ⟨true, v, r.lastPubValid, r.lastPub⟩ :=
  if_neg h

/-- Either way the value is the tracked height (42 R161). -/
theorem committedHi_curHeight : (committedHi r v).curHeight = v ∧ (committedHi r v).curHeightValid = true := by
  unfold committedHi
  split <;> exact ⟨rfl, rfl⟩

end

/-- The publish strobe and the last published value of a reading that is not 0 (42 R162). -/
theorem commitReading_publish {v : Height} (s : State) (hv : 0 < v.toNat) :
    if s.hi.lastPubValid = false ∨ v ≠ s.hi.lastPub then
      (commitReading v s).out.pub = some v ∧ (commitReading v s).hi.lastPub = v ∧
        (commitReading v s).hi.lastPubValid = true
    else
      (commitReading v s).out.pub = none ∧ (commitReading v s).hi.lastPub = s.hi.lastPub ∧
        (commitReading v s).hi.lastPubValid = s.hi.lastPubValid := by
  simp only [← publishFlag_eq_true_iff hv, commitReading_out, commitReading_hi, readingOut]
  split
  · rename_i h
    rw [committedHi_of_publish h]
    exact ⟨rfl, rfl, rfl⟩
  · rename_i h
    rw [committedHi_of_not_publish h]
    exact ⟨rfl, rfl, rfl⟩

/-- A height broadcast whose digits give a reading commits it. -/
theorem exec_msgHeight_of_reading {bh bt bo : Byte} {v : Height} {s : State} (r3 r4 : Byte)
    (hj : judgeHeight (segRom s.segTable (patternOf bh)) (segRom s.segTable (patternOf bt))
      (segRom s.segTable (patternOf bo)) (hasDecimal bt) = .reading v) :
    exec (.msgHeight bh bt bo r3 r4) s = .next (commitReading v (withDigits bh bt bo s)) := by
  have h := execMsgHeight_eq bh bt bo r3 r4 s
  rw [hj] at h
  exact h

/-- Settles O21: the digits give the reading, which is positive and is committed. -/
theorem readingIsCommitted : Obligations.ReadingIsCommitted := by
  intro s bh bt bo r3 r4 x y z hx hy hz hne
  have hj := judgeHeight_num (hasDecimal bt) hx hy hz hne
  obtain ⟨hpos, -⟩ := judgeHeight_range hj
  obtain ⟨hcur, hvalid⟩ := committedHi_curHeight (r := s.hi) (v := readingValue (rawHeight x y z) (hasDecimal bt))
  exact ⟨_, _, _, exec_msgHeight_of_reading r3 r4 hj, readingValue_toNat x y z (hasDecimal bt), rfl, rfl, rfl,
    hcur, hvalid, rfl, commitReading_publish (withDigits bh bt bo s) hpos,
    sameOutsideHi_applyHeight (.reading _) bh bt bo s⟩

/-! ### A step without a reading (42 R163) -/

/-- HI without a reading keeps its registers and signals nothing. -/
theorem HiOutcome.hiKept {s t : State} (h : HiOutcome s t) (hne : t.out.hiEvt ≠ .reading) : HiKept s t := by
  cases h with
  | idle => exact ⟨rfl, rfl, rfl, rfl⟩
  | code e => exact hiKept_setHiEvt e s
  | height _ h t o =>
    rw [applyHeight_hiEvt] at hne
    exact hiKept_applyHeight h t o s hne

/-- A step is a clock step on the oldest input. -/
theorem step_of_inputs {s : State} {inp : Input} {rest : List Input} (hin : s.inputs = inp :: rest) :
    step s = clockStep inp { s with inputs := rest } := by
  rw [step, hin]

/-- Settles O22: FR, PS and TX write nothing of HI's, and HI keeps it. -/
theorem ignoredPacketChangesNothing : Obligations.IgnoredPacketChangesNothing := by
  intro s inp rest hin hrst
  obtain ⟨s1, s2, -, -, -, hfr, -, hhi, hstep⟩ := clockStep_phases inp { s with inputs := rest } hrst
  obtain ⟨hregs, -, -, -, -, -, -, -, -, hact, hpub, -⟩ := hfr
  refine ⟨_, (step_of_inputs hin).trans hstep, fun hne => ?_⟩
  simp only [afterTx_out, psStep_hiEvt] at hne
  obtain ⟨hregs', hact', hpub', -⟩ := hhi.hiKept hne
  simp only [afterTx_hi, afterTx_out, psStep_hi, psStep_activity, psStep_pub]
  exact ⟨hregs'.trans hregs, hact'.trans hact, hpub'.trans hpub⟩

end Sys2Proof.Machine

/-! PROOFS of the family `43_poll_scheduler`. What the transition of PS can do, one constructor per branch of R187 to
R189 with the conditions that select it; the state that the transition reads in a clock step, tied to the state at
the start of the step; then each rule is a case split on the outcomes. -/

namespace Sys2Proof.Machine

open Sys2Proof.Safety

/-! ### The branches of the transition (43 R187 to R189) -/

/-- What PS can make of state `s`, in which the activity update is done, at time `n`. -/
inductive PsOutcome (n : Time) (s : State) : State → Prop
  | bootToIdle : s.ps.psState = .bootWait → s.cfg.bootDelay < elapsed n s.ps.bootTime ∧ s.tx.txBusy = false →
      PsOutcome n s (poll .idle n s.cfg.bootCmd .bootToIdle s)
  | bootWaits : s.ps.psState = .bootWait → ¬(s.cfg.bootDelay < elapsed n s.ps.bootTime ∧ s.tx.txBusy = false) →
      PsOutcome n s s
  | idleToActive : s.ps.psState = .idle → readingChanged s = true →
      PsOutcome n s (moveTo .active .idleToActive s)
  | idlePoll : s.ps.psState = .idle → ¬readingChanged s = true →
      s.cfg.idleInterval ≤ elapsed n s.ps.lastPollTime ∧ s.tx.txBusy = false →
      PsOutcome n s (poll .idle n s.cfg.idleCmd .idlePoll s)
  | idles : s.ps.psState = .idle → ¬readingChanged s = true →
      ¬(s.cfg.idleInterval ≤ elapsed n s.ps.lastPollTime ∧ s.tx.txBusy = false) → PsOutcome n s s
  | activeToIdle : s.ps.psState = .active → s.cfg.activityTimeout < elapsed n s.ps.lastActivityTime →
      PsOutcome n s (moveTo .idle .activeToIdle s)
  | activePoll : s.ps.psState = .active → ¬s.cfg.activityTimeout < elapsed n s.ps.lastActivityTime →
      s.cfg.activeInterval ≤ elapsed n s.ps.lastPollTime ∧ s.tx.txBusy = false →
      PsOutcome n s (poll .active n s.cfg.activeCmd .activePoll s)
  | staysActive : s.ps.psState = .active → ¬s.cfg.activityTimeout < elapsed n s.ps.lastActivityTime →
      ¬(s.cfg.activeInterval ≤ elapsed n s.ps.lastPollTime ∧ s.tx.txBusy = false) → PsOutcome n s s

section
variable (n : Time) (s : State)

/-- The guard of a poll: it is due, and TX is free (43 R190). -/
theorem due_and_free_iff (p : Prop) [Decidable p] :
    (decide p && !s.tx.txBusy) = true ↔ p ∧ s.tx.txBusy = false := by
  simp

/-- The transition takes the branch of its state. -/
theorem transition_outcome : PsOutcome n s (transition n s) := by
  unfold transition
  split
  case h_1 hp =>
    simp only [bootWaitStep, bootDue, due_and_free_iff]
    split
    · exact .bootToIdle hp ‹_›
    · exact .bootWaits hp ‹_›
  case h_2 hp =>
    simp only [idleStep, idleDue, due_and_free_iff]
    split
    · exact .idleToActive hp ‹_›
    · split
      · exact .idlePoll hp ‹_› ‹_›
      · exact .idles hp ‹_› ‹_›
  case h_3 hp =>
    simp only [activeStep, activeDue, timedOut, due_and_free_iff, decide_eq_true_eq]
    split
    · exact .activeToIdle hp ‹_›
    · split
      · exact .activePoll hp ‹_› ‹_›
      · exact .staysActive hp ‹_› ‹_›

end

section
variable {n : Time} {s t : State}

/-- The transition keeps the two times that are not its own, HI's part of the event record, and the reading. -/
theorem PsOutcome.kept (h : PsOutcome n s t) :
    t.ps.bootTime = s.ps.bootTime ∧ t.ps.lastActivityTime = s.ps.lastActivityTime ∧
      t.out.activity = s.out.activity ∧ t.out.hiEvt = s.out.hiEvt ∧ t.wires.reading = s.wires.reading := by
  cases h <;> exact ⟨rfl, rfl, rfl, rfl, rfl⟩

/-- The next state of PS is the same or follows by one of the three transitions (43 R185). -/
theorem PsOutcome.psState (h : PsOutcome n s t) :
    t.ps.psState = s.ps.psState ∨ (s.ps.psState = .bootWait ∧ t.ps.psState = .idle) ∨
      (s.ps.psState = .idle ∧ t.ps.psState = .active) ∨ (s.ps.psState = .active ∧ t.ps.psState = .idle) := by
  cases h with
  | bootToIdle hp => exact .inr (.inl ⟨hp, rfl⟩)
  | idleToActive hp => exact .inr (.inr (.inl ⟨hp, rfl⟩))
  | activeToIdle hp => exact .inr (.inr (.inr ⟨hp, rfl⟩))
  | idlePoll hp | activePoll hp => exact .inl hp.symm
  | bootWaits | idles | staysActive => exact .inl rfl

/-- The four things that a rule of PS says of a step: the next state of PS, the time of the last poll, the request
and the event. -/
def PsResult (t : State) (p : PsState) (lastPoll : Time) (req : Option Variant) (e : PsEvt) : Prop :=
  t.ps.psState = p ∧ t.ps.lastPollTime = lastPoll ∧ t.out.txReq = req ∧ t.out.psEvt = e

/-- IDLE-STEP in a step in which PS has signalled nothing yet. -/
theorem PsOutcome.idleResult (h : PsOutcome n s t) (hp : s.ps.psState = .idle) (hreq : s.out.txReq = none)
    (hevt : s.out.psEvt = .none) :
    if readingChanged s = true then PsResult t .active s.ps.lastPollTime none .idleToActive
    else if s.cfg.idleInterval ≤ elapsed n s.ps.lastPollTime ∧ s.tx.txBusy = false then
      PsResult t .idle n (some s.cfg.idleCmd) .idlePoll
    else PsResult t .idle s.ps.lastPollTime none .none := by
  cases h with
  | idleToActive _ hc => rw [if_pos hc]; exact ⟨rfl, rfl, hreq, rfl⟩
  | idlePoll _ hc hd => rw [if_neg hc, if_pos hd]; exact ⟨rfl, rfl, rfl, rfl⟩
  | idles _ hc hd => rw [if_neg hc, if_neg hd]; exact ⟨hp, rfl, hreq, hevt⟩
  | bootToIdle hp' | bootWaits hp' | activeToIdle hp' | activePoll hp' | staysActive hp' =>
    exact PsState.noConfusion (hp.symm.trans hp')

/-- ACTIVE-STEP in a step in which PS has signalled nothing yet. -/
theorem PsOutcome.activeResult (h : PsOutcome n s t) (hp : s.ps.psState = .active) (hreq : s.out.txReq = none)
    (hevt : s.out.psEvt = .none) :
    if s.cfg.activityTimeout < elapsed n s.ps.lastActivityTime then
      PsResult t .idle s.ps.lastPollTime none .activeToIdle
    else if s.cfg.activeInterval ≤ elapsed n s.ps.lastPollTime ∧ s.tx.txBusy = false then
      PsResult t .active n (some s.cfg.activeCmd) .activePoll
    else PsResult t .active s.ps.lastPollTime none .none := by
  cases h with
  | activeToIdle _ hc => rw [if_pos hc]; exact ⟨rfl, rfl, hreq, rfl⟩
  | activePoll _ hc hd => rw [if_neg hc, if_pos hd]; exact ⟨rfl, rfl, rfl, rfl⟩
  | staysActive _ hc hd => rw [if_neg hc, if_neg hd]; exact ⟨hp, rfl, hreq, hevt⟩
  | bootToIdle hp' | bootWaits hp' | idleToActive hp' | idlePoll hp' | idles hp' =>
    exact PsState.noConfusion (hp.symm.trans hp')

end

/-! ### The state that the transition reads -/

/-- The state `u` that the transition reads in a clock step on `inp` from `s`: of PS's registers only the activity
update is done, TX and `cfg` are those at the start of the step, PS has signalled nothing, and a reading is one of
this step (10 R33; 43 R186). -/
structure BeforeTransition (inp : Input) (s u : State) : Prop where
  ps : u.ps =
    { s.ps with lastActivityTime := if u.out.activity = true then inp.nowMs else s.ps.lastActivityTime }
  tx : u.tx = s.tx
  cfg : u.cfg = s.cfg
  txReq : u.out.txReq = none
  psEvt : u.out.psEvt = .none
  reading : u.out.hiEvt ≠ .reading → u.wires.reading = none

theorem readingChanged_iff {s : State} :
    readingChanged s = true ↔ s.wires.reading.map Reading.changed = some true := by
  unfold readingChanged
  cases s.wires.reading <;> simp

/-- A changed reading is one that HI reports in the same step. -/
theorem BeforeTransition.changed_iff {inp : Input} {s u : State} (hu : BeforeTransition inp s u) :
    readingChanged u = true ↔ u.out.hiEvt = .reading ∧ u.wires.reading.map Reading.changed = some true := by
  rw [readingChanged_iff, iff_and_self]
  intro hc
  by_contra hne
  simp [hu.reading hne] at hc

section
variable {s : State} {inp : Input} {rest : List Input}

/-- A step without reset: FR and HI leave PS, TX and `cfg` as they were, the transition takes its branch, and TX
follows. -/
theorem step_transition (hin : s.inputs = inp :: rest) (hrst : inp.rst = false) :
    ∃ u v, step s = .next (afterTx inp v) ∧ BeforeTransition inp s u ∧ PsOutcome inp.nowMs u v := by
  obtain ⟨s1, s2, -, -, -, hfr, -, hhi, hstep⟩ := clockStep_phases inp { s with inputs := rest } hrst
  obtain ⟨-, hps, htx, hcfg, -, -, hwires, -, -, -, -, hevt, hreq⟩ := hfr
  obtain ⟨-, hps', htx', hcfg', -, -, -, -, -, -, hevt', hreq'⟩ := hhi.sameOutside
  refine ⟨activityUpdate inp.nowMs s2, psStep inp.nowMs s2, (step_of_inputs hin).trans hstep, ?_,
    transition_outcome inp.nowMs (activityUpdate inp.nowMs s2)⟩
  rw [activityUpdate_eq]
  exact {
    ps := by rw [withPs_ps, withPs_out, hps'.trans hps]; rfl
    tx := htx'.trans htx
    cfg := hcfg'.trans hcfg
    txReq := hreq'.trans hreq
    psEvt := hevt'.trans hevt
    reading := fun hne => by
      obtain ⟨-, -, -, hkept⟩ := hhi.hiKept hne
      exact hkept.trans (congrArg Wires.reading hwires) }

end

/-! ### The rules -/

/-- Settles O27: the transition and TX keep what the activity update wrote. -/
theorem activityRefreshesTimer : Obligations.ActivityRefreshesTimer := by
  intro s inp rest hin hrst
  obtain ⟨u, v, hstep, hu, hv⟩ := step_transition hin hrst
  obtain ⟨-, htime, hact, -, -⟩ := hv.kept
  refine ⟨_, hstep, ?_⟩
  rw [afterTx_ps, afterTx_out, htime, hact, hu.ps]

/-- Settles O29: the transition's outcomes in Idle, on the reading of the same step. -/
theorem idleStepFollowsRule : Obligations.IdleStepFollowsRule := by
  intro s inp rest hin hrst hp
  obtain ⟨u, v, hstep, hu, hv⟩ := step_transition hin hrst
  obtain ⟨hboot, -, -, hhiEvt, hreading⟩ := hv.kept
  have hrule := hv.idleResult (by rw [hu.ps]; exact hp) hu.txReq hu.psEvt
  simp only [hu.changed_iff, ← hhiEvt, ← hreading, hu.cfg, hu.tx] at hrule
  refine ⟨_, hstep, ?_, ?_⟩
  · rw [afterTx_ps, hboot, hu.ps]
  · simp only [afterTx_ps, afterTx_out, afterTx_reading]
    rw [hu.ps] at hrule
    exact hrule

/-- Settles O30: the transition's outcomes in Active; the time of the last activity that they read is the one that
the step leaves. -/
theorem activeStepFollowsRule : Obligations.ActiveStepFollowsRule := by
  intro s inp rest hin hrst hp
  obtain ⟨u, v, hstep, hu, hv⟩ := step_transition hin hrst
  obtain ⟨hboot, htime, -, -, -⟩ := hv.kept
  have hrule := hv.activeResult (by rw [hu.ps]; exact hp) hu.txReq hu.psEvt
  simp only [← htime, hu.cfg, hu.tx] at hrule
  refine ⟨_, hstep, ?_, ?_⟩
  · rw [afterTx_ps, hboot, hu.ps]
  · simp only [afterTx_ps, afterTx_out]
    rw [hu.ps] at hrule
    exact hrule

/-- Settles O31: a reset step is free to enter BootWait, and any other step makes the transition's move. -/
theorem schedulerTransitions : Obligations.SchedulerTransitions := by
  intro s inp rest hin
  cases hrst : inp.rst with
  | true =>
    have hreset : clockStep inp { s with inputs := rest } = .next (resetStep inp.nowMs { s with inputs := rest }) :=
      if_pos hrst
    exact ⟨_, (step_of_inputs hin).trans hreset, Bool.noConfusion, fun _ => .inr rfl⟩
  | false =>
    obtain ⟨u, v, hstep, hu, hv⟩ := step_transition hin hrst
    have hmove := hv.psState
    rw [hu.ps] at hmove
    refine ⟨_, hstep, fun _ => by rw [afterTx_ps]; exact hmove, fun hb => .inl ?_⟩
    rw [afterTx_ps] at hb
    simpa [hb, eq_comm] using hmove

end Sys2Proof.Machine

/-! PROOFS of the family `44_command_tx`. The ROM holds as many bytes as its index reaches, so reading all its indices
in order gives the command back. -/

namespace Sys2Proof

/-- A command has one byte for every index of 3 bits (30 R79). -/
@[simp] theorem length_cmdBytes (v : Variant) : (cmdBytes v).length = 8 := by
  cases v <;> rfl

/-- An index below 8 reads its own byte of the command, never the default of `cmdRom`. -/
theorem cmdRom_ofNat (v : Variant) {k : Nat} (hk : k < (cmdBytes v).length) :
    cmdRom v (BitVec.ofNat 3 k) = (cmdBytes v)[k] := by
  have hindex : (BitVec.ofNat 3 k).toNat = k := Nat.mod_eq_of_lt (by simpa using hk)
  rw [cmdRom, hindex, List.getD_eq_getElem _ _ hk]

/-- The eight indices of the ROM, in order, read the command as it goes out. -/
theorem map_cmdRom (v : Variant) : (List.range 8).map (fun k => cmdRom v (BitVec.ofNat 3 k)) = cmdBytes v :=
  List.ext_getElem (by simp) fun k _ hk => by simp [cmdRom_ofNat v hk]

/-- Settles O39: by `map_cmdRom` each row of the ROM is the command of its variant (44 R210). -/
theorem commandRomContents : Obligations.CommandRomContents :=
  ⟨map_cmdRom .wake, map_cmdRom .silent, rfl, rfl⟩

end Sys2Proof

/-! PROOFS of the family `60_exceptions`. A framing error writes the cursor and the event code (60 R231): what it
leaves outside FR is one frame lemma, what it leaves in FR and in the event record is read off its two equations. -/

namespace Sys2Proof.Machine

open Sys2Proof.Safety

/-- A framing error keeps every other unit, and the other units' fields of the event record. -/
theorem sameOutsideFr_frameError (code : FrEvt) (s : State) : SameOutsideFr s (frameError code s) := by
  simp only [SameOutsideFr, frameError_hi, frameError_ps, frameError_tx, frameError_cfg, frameError_segTable,
    frameError_inputs, frameError_wires, frameError_tick, frameError_out, and_self]

/-- Settles O13: the FR registers differ from those before in the cursor only, and the event record in the FR event
only. -/
theorem frameErrorDoesThreeThings : Obligations.FrameErrorDoesThreeThings := by
  intro code s
  rw [frameError_fr, frameError_out]
  exact ⟨rfl, rfl, rfl, rfl, sameOutsideFr_frameError code s⟩

end Sys2Proof.Machine

/-! PROOFS of the family `70_reset_and_hazards`. What a reset step leaves in each part of the state, and that the step
on an input with `rst = 1` is the reset step alone (70 R260, R263). -/

namespace Sys2Proof.Machine

/-! ### The state that a reset step leaves -/

section
variable (now : Time) (s : State)

@[simp] theorem resetStep_fr : (resetStep now s).fr = { s.fr with cursor := 0#5 } := rfl
@[simp] theorem resetStep_hi : (resetStep now s).hi =
    { curHeightValid := false, curHeight := Config.freeCurHeight s.tick,
      lastPubValid := false, lastPub := Config.freeLastPub s.tick } := rfl
@[simp] theorem resetStep_ps : (resetStep now s).ps =
    { psState := .bootWait, bootTime := now, lastPollTime := now, lastActivityTime := now } := rfl
@[simp] theorem resetStep_tx : (resetStep now s).tx =
    { txBusy := false, txSel := Config.freeTxSel s.tick, txIdx := 0#3 } := rfl
@[simp] theorem resetStep_out : (resetStep now s).out = Out.quiet := rfl
@[simp] theorem resetStep_wires : (resetStep now s).wires = { s.wires with reading := none, txSent := none } := rfl
@[simp] theorem resetStep_cfg : (resetStep now s).cfg = s.cfg := rfl
@[simp] theorem resetStep_segTable : (resetStep now s).segTable = s.segTable := rfl
@[simp] theorem resetStep_inputs : (resetStep now s).inputs = s.inputs := rfl

end

/-! ### The step on an input with `rst = 1` -/

/-- No unit acts in a clock step with reset (70 R263). -/
theorem clockStep_of_reset {inp : Input} (s : State) (hrst : inp.rst = true) :
    clockStep inp s = .next (resetStep inp.nowMs s) := if_pos hrst

theorem step_of_reset {s : State} {inp : Input} {rest : List Input} (hin : s.inputs = inp :: rest)
    (hrst : inp.rst = true) : step s = .next (resetStep inp.nowMs { s with inputs := rest }) :=
  (step_of_inputs hin).trans (clockStep_of_reset _ hrst)

/-- `tx_valid` is 0 in a reset step, also when TX is busy (10 R37). -/
theorem levels_txValid_of_reset {rst : Bool} (s : State) (hrst : rst = true) : (levels rst s).txValid = false := by
  rw [levels_txValid, hrst, Bool.not_true, Bool.and_false]

/-- Settles O43: the step is the reset step, and each clause but that of `tx_valid` reads one part of the state that it
leaves. -/
theorem resetStepSetsRegisters : Obligations.ResetStepSetsRegisters := by
  intro s inp rest hin hrst
  refine ⟨_, step_of_reset hin hrst, ?_⟩
  simp only [resetStep_fr, resetStep_hi, resetStep_ps, resetStep_tx, resetStep_out, resetStep_wires, resetStep_cfg,
    resetStep_segTable, resetStep_inputs, levels_txValid_of_reset s hrst, Out.quiet, and_self]

end Sys2Proof.Machine

/-! PROOFS of the family `other`: the encodings (30 sections 1 to 6). The rows of the digit bytes are one function of
the digit that `SegRom` holds; the other classes are the branches of their decoder. -/

namespace Sys2Proof

open Sys2Proof.Safety

/-! ### Digit bytes (30 R77; 40 R102) -/

/-- The row of a digit at a port, with its decimal-point bit; only the row of Invalid carries its pattern. -/
def digitRow (port : Port) (d : Bool) (p : Pattern) : Digit → Instr
  | .num 0 => .digit0 port d
  | .num 1 => .digit1 port d
  | .num 2 => .digit2 port d
  | .num 3 => .digit3 port d
  | .num 4 => .digit4 port d
  | .num 5 => .digit5 port d
  | .num 6 => .digit6 port d
  | .num 7 => .digit7 port d
  | .num 8 => .digit8 port d
  | .num 9 => .digit9 port d
  | .minus => .digitMinus port d
  | .blank => .digitBlank port d
  | .invalid => .digitInvalid port d p

section
variable (t : SegTable) (port : Port) (d : Bool) (p : Pattern) (g : Digit)

/-- A digit byte decodes to the row of its entry in `SegRom`. -/
theorem decodeDigit_eq_digitRow (b : Byte) :
    decodeDigit t port b = digitRow port (hasDecimal b) (patternOf b) (segRom t (patternOf b)) := by
  unfold decodeDigit digitRow
  rfl

@[simp] theorem contextOf_digitRow : contextOf (digitRow port d p g) = .digit port := by
  unfold digitRow
  split <;> rfl

/-- Only the row of Invalid has a side condition, on the pattern that it carries. -/
theorem wf_digitRow (hg : g = segRom t p) : (digitRow port d p g).wf t = true := by
  unfold digitRow
  split
  case h_13 => exact decide_eq_true hg.symm
  all_goals rfl

/-- A row is encoded as the pattern of its digit, that of Invalid as the pattern it carries. -/
theorem encode_digitRow :
    encode t (digitRow port d p g) = [digitByte d ((patternFor t g).getD p)] := by
  unfold digitRow
  split <;> rfl

variable {t g p}

/-- The encoded row of a digit decodes to that row when its pattern is one of that digit. -/
theorem decode_digitByte (h : segRom t p = g) :
    decode t (.digit port) [digitByte d p] = .ok (digitRow port d p g) := by
  rw [decode, decodeDigit_eq_digitRow, hasDecimal_digitByte, patternOf_digitByte, h]

/-- Under a legal table the pattern of a digit other than Invalid gives its row back. -/
theorem decode_digitByte_of_patternFor (hw : t.wf) (h : patternFor t g = some p) :
    decode t (.digit port) [digitByte d p] = .ok (digitRow port d p g) :=
  decode_digitByte port d (segRom_of_patternFor hw h)

end

/-! ### Messages (42 R151) -/

section
variable {len type : Byte} {payload : List Byte}

/-- A Packet whose length byte its payload fits decodes to its message class. -/
theorem decode_message_of_deliverable (t : SegTable) (hd : deliverable len payload = true) :
    decode t (.message len) (type :: payload) = .ok (decodeMessage len type payload) :=
  if_pos hd

theorem decodeMessage_badlen (hl : len ≠ heightLength) :
    decodeMessage len typeHeight payload = .msgHeightBadlen len payload := by
  unfold decodeMessage
  rw [if_neg (by decide), if_pos rfl, if_neg hl]

theorem decodeMessage_otherType (hb : type ≠ typeHeartbeat) (hh : type ≠ typeHeight) :
    decodeMessage len type payload = .msgOther type len payload := by
  unfold decodeMessage
  rw [if_neg hb, if_neg hh]

end

/-! ### Length bytes (30 R74) -/

section
variable {b : Byte}

theorem decodeLength_ok (h2 : 2 ≤ b.toNat) (hcap : b.toNat + 2 ≤ Config.bufCap) : decodeLength b = .lenOk b := by
  have h0 : b ≠ 0#8 := by rintro rfl; exact absurd h2 (by decide)
  have h1 : b ≠ 1#8 := by rintro rfl; exact absurd h2 (by decide)
  rw [decodeLength, if_neg h0, if_neg h1, if_pos hcap]

theorem decodeLength_overflow (hcap : Config.bufCap < b.toNat + 2) : decodeLength b = .lenOverflow b := by
  have h0 : b ≠ 0#8 := by rintro rfl; exact absurd hcap (by decide)
  have h1 : b ≠ 1#8 := by rintro rfl; exact absurd hcap (by decide)
  rw [decodeLength, if_neg h0, if_neg h1, if_neg (Nat.not_le.mpr hcap)]

end

/-! ### The round trip -/

/-- Settles O1: each class is the branch of its decoder that its side condition selects. -/
theorem decodeInvertsEncode : Obligations.DecodeInvertsEncode := by
  intro t i hw hi
  cases i with
  | start9b | start98 | data | end9d | len0 | len1 | msgHeight | cmdWake | cmdSilent => rfl
  | noise b =>
    obtain ⟨h9, h8⟩ := of_decide_eq_true hi
    exact congrArg Except.ok ((if_neg h9).trans (if_neg h8))
  | badEnd b => exact congrArg Except.ok (if_neg (of_decide_eq_true hi))
  | lenOk b =>
    obtain ⟨h2, hcap⟩ := of_decide_eq_true hi
    exact congrArg Except.ok (decodeLength_ok h2 hcap)
  | lenOverflow b => exact congrArg Except.ok (decodeLength_overflow (of_decide_eq_true hi))
  | msgHeartbeat len payload => exact decode_message_of_deliverable t hi
  | msgHeightBadlen len payload =>
    obtain ⟨hl, hd⟩ := Bool.and_eq_true_iff.mp hi
    exact (decode_message_of_deliverable t hd).trans
      (congrArg Except.ok (decodeMessage_badlen (of_decide_eq_true hl)))
  | msgOther type len payload =>
    obtain ⟨hty, hd⟩ := Bool.and_eq_true_iff.mp hi
    obtain ⟨hb, hh⟩ := of_decide_eq_true hty
    exact (decode_message_of_deliverable t hd).trans (congrArg Except.ok (decodeMessage_otherType hb hh))
  | digit0 port d => exact decode_digitByte_of_patternFor port d (g := .num 0) hw rfl
  | digit1 port d => exact decode_digitByte_of_patternFor port d (g := .num 1) hw rfl
  | digit2 port d => exact decode_digitByte_of_patternFor port d (g := .num 2) hw rfl
  | digit3 port d => exact decode_digitByte_of_patternFor port d (g := .num 3) hw rfl
  | digit4 port d => exact decode_digitByte_of_patternFor port d (g := .num 4) hw rfl
  | digit5 port d => exact decode_digitByte_of_patternFor port d (g := .num 5) hw rfl
  | digit6 port d => exact decode_digitByte_of_patternFor port d (g := .num 6) hw rfl
  | digit7 port d => exact decode_digitByte_of_patternFor port d (g := .num 7) hw rfl
  | digit8 port d => exact decode_digitByte_of_patternFor port d (g := .num 8) hw rfl
  | digit9 port d => exact decode_digitByte_of_patternFor port d (g := .num 9) hw rfl
  | digitMinus port d => exact decode_digitByte_of_patternFor port d (g := .minus) hw rfl
  | digitBlank port d => exact decode_digitByte_of_patternFor port d (g := .blank) hw rfl
  | digitInvalid port d p => exact decode_digitByte port d (of_decide_eq_true hi)

/-! ### The other direction -/

/-- `i` is a well-formed instruction of the place `c`, encoded as `bytes`. -/
def StandsFor (t : SegTable) (c : Context) (bytes : List Byte) (i : Instr) : Prop :=
  i.wf t = true ∧ contextOf i = c ∧ encode t i = bytes

section
variable (t : SegTable) (b : Byte)

theorem standsFor_decodeScanning : StandsFor t (.frame .scanning) [b] (decodeScanning b) := by
  unfold decodeScanning
  split
  · rename_i h9; subst h9; exact ⟨rfl, rfl, rfl⟩
  · split
    · rename_i h8; subst h8; exact ⟨rfl, rfl, rfl⟩
    · exact ⟨decide_eq_true ⟨‹_›, ‹_›⟩, rfl, rfl⟩

theorem standsFor_decodeLength : StandsFor t (.frame .length) [b] (decodeLength b) := by
  unfold decodeLength
  split
  · rename_i h0; subst h0; exact ⟨rfl, rfl, rfl⟩
  · split
    · rename_i h1; subst h1; exact ⟨rfl, rfl, rfl⟩
    · split
      · rename_i h0 h1 hcap
        have h0' : b.toNat ≠ 0 := BitVec.toNat_ne.mp h0
        have h1' : b.toNat ≠ 1 := BitVec.toNat_ne.mp h1
        exact ⟨decide_eq_true ⟨by omega, hcap⟩, rfl, rfl⟩
      · exact ⟨decide_eq_true (Nat.not_le.mp ‹_›), rfl, rfl⟩

theorem standsFor_decodeEnd : StandsFor t (.frame .atEnd) [b] (decodeEnd b) := by
  unfold decodeEnd
  split
  · rename_i h; subst h; exact ⟨rfl, rfl, rfl⟩
  · exact ⟨decide_eq_true ‹_›, rfl, rfl⟩

theorem standsFor_decodeDigit (port : Port) : StandsFor t (.digit port) [b] (decodeDigit t port b) := by
  rw [decodeDigit_eq_digitRow]
  refine ⟨wf_digitRow t port _ _ _ rfl, contextOf_digitRow port _ _ _, ?_⟩
  have hpattern : (patternFor t (segRom t (patternOf b))).getD (patternOf b) = patternOf b := by
    by_cases h : segRom t (patternOf b) = .invalid
    · rw [h]; rfl
    · rw [patternFor_segRom h]; rfl
  rw [encode_digitRow, hpattern, digitByte_split]

end

theorem standsFor_decodeMessage (t : SegTable) {len : Byte} (type : Byte) {payload : List Byte}
    (hd : deliverable len payload = true) :
    StandsFor t (.message len) (type :: payload) (decodeMessage len type payload) := by
  by_cases hb : type = typeHeartbeat
  · subst hb; exact ⟨hd, rfl, rfl⟩
  by_cases hh : type = typeHeight
  · subst hh
    by_cases hl : len = heightLength
    · subst hl
      obtain ⟨h, t, o, r3, r4, rfl⟩ := Machine.payload_eq_five_of_deliverable hd
      exact ⟨rfl, rfl, rfl⟩
    · rw [decodeMessage_badlen hl]
      exact ⟨Bool.and_eq_true_iff.mpr ⟨decide_eq_true hl, hd⟩, rfl, rfl⟩
  · rw [decodeMessage_otherType hb hh]
    exact ⟨Bool.and_eq_true_iff.mpr ⟨decide_eq_true ⟨hb, hh⟩, hd⟩, rfl, rfl⟩

/-- Settles O5: by place of the frame. -/
theorem everyFrameByteIsAnInstruction : Obligations.EveryFrameByteIsAnInstruction := by
  intro t c b
  cases c with
  | scanning => exact standsFor_decodeScanning t b
  | length => exact standsFor_decodeLength t b
  | data => exact ⟨rfl, rfl, rfl⟩
  | atEnd => exact standsFor_decodeEnd t b

/-- Settles O2: what each context decodes stands for the bytes that it was given. -/
theorem encodeInvertsDecode : Obligations.EncodeInvertsDecode := by
  intro t c bytes i h
  unfold decode at h
  split at h
  case h_1 c b =>
    cases h
    exact everyFrameByteIsAnInstruction t c b
  case h_3 len type payload =>
    split at h
    · cases h
      exact standsFor_decodeMessage t type ‹_›
    · cases h
  case h_5 =>
    split at h
    · cases h
      exact ⟨rfl, rfl, Eq.symm ‹_›⟩
    · split at h
      · cases h
        exact ⟨rfl, rfl, Eq.symm ‹_›⟩
      · cases h
  case h_6 port b =>
    cases h
    exact standsFor_decodeDigit t b port
  all_goals cases h

/-! ### Written-out words and counts -/

/-- Settles O3: by evaluating the decoder on each word. -/
theorem writtenWordsDecode : Obligations.WrittenWordsDecode :=
  ⟨rfl, rfl, rfl, rfl, rfl, rfl, rfl, rfl, rfl, rfl⟩

/-- Settles O4: by evaluating `SegRom` on every pattern and every byte. -/
theorem defaultTableHasTwelvePatterns : Obligations.DefaultTableHasTwelvePatterns := by
  constructor <;> decide

end Sys2Proof

/-! PROOFS of the family `other`: FR on one byte (41 section 2). What one write does to the buffer; then each class is
an outcome of FR, and what it leaves is read off that outcome. -/

namespace Sys2Proof.Machine

open Sys2Proof.Safety

/-! ### The buffer -/

/-- Reading after a write to a canonical buffer: the byte at its address, and every other byte as before. -/
theorem readByte_writeByte {m : Memory} (a : Nat) (b : Byte) (hm : Memory.wf m) :
    readByte (writeByte m a b) a = b ∧ OtherBytesSame m (writeByte m a b) a :=
  ⟨readByte_writeByte_same a b hm, fun _ h => readByte_writeByte_other b h⟩

/-- In a canonical buffer no listed address reads as an unlisted one. -/
theorem readByte_head_ne {k : Nat} {v : Byte} {m : Memory} (h : Memory.wf ((k, v) :: m)) :
    readByte ((k, v) :: m) k ≠ Config.unwrittenByte := by
  rw [readByte_cons, if_pos rfl]
  exact (h.2 (k, v) List.mem_cons_self).2

/-- The tail of a canonical buffer reads as the buffer does, but for the head's address, which it does not list. -/
theorem readByte_tail {k : Nat} {v : Byte} {m : Memory} (h : Memory.wf ((k, v) :: m)) (a : Nat) :
    readByte m a = if k = a then Config.unwrittenByte else readByte ((k, v) :: m) a := by
  rw [readByte_cons]
  split
  · subst k
    exact readByte_of_all_above (Memory.wf_tail h).2
  · rfl

/-- The first address of a canonical buffer is not below that of one that reads the same. -/
theorem head_le_of_readByte_eq {k k' : Nat} {v v' : Byte} {m m' : Memory} (h : Memory.wf ((k, v) :: m))
    (h' : Memory.wf ((k', v') :: m')) (hr : ∀ a, readByte ((k, v) :: m) a = readByte ((k', v') :: m') a) :
    k' ≤ k := by
  by_contra hlt
  have habove : ∀ c ∈ (k', v') :: m', k < c.1 := by
    intro c hc
    rcases List.mem_cons.mp hc with rfl | hc
    · exact Nat.not_le.mp hlt
    · exact (Nat.not_le.mp hlt).trans ((Memory.wf_tail h').2 c hc)
  exact readByte_head_ne h ((hr k).trans (readByte_of_all_above habove))

/-- Settles O51: by induction on one buffer; the heads have the same address and byte, and the tails read the same. -/
theorem canonicalBuffersAgree : Obligations.CanonicalBuffersAgree := by
  intro m
  induction m with
  | nil =>
    intro m' _ h' hr
    cases m' with
    | nil => rfl
    | cons c m' => exact absurd (hr c.1).symm (readByte_head_ne h')
  | cons c m ih =>
    intro m' h h' hr
    cases m' with
    | nil => exact absurd (hr c.1) (readByte_head_ne h)
    | cons c' m' =>
      obtain ⟨k, v⟩ := c
      obtain ⟨k', v'⟩ := c'
      have hk : k = k' :=
        Nat.le_antisymm (head_le_of_readByte_eq h' h fun a => (hr a).symm) (head_le_of_readByte_eq h h' hr)
      subst hk
      have hv : v = v' := by simpa [readByte_cons] using hr k
      have ht : m = m' := by
        refine ih m' (Memory.wf_tail h).1 (Memory.wf_tail h').1 fun a => ?_
        rw [readByte_tail h, readByte_tail h', hr a]
      rw [hv, ht]

/-! ### What each class leaves -/

/-- What the statements about FR say of a class that stores `b` at address `a`: the buffer, the cursor, the event, no
Packet, and the frame. -/
theorem stored_of_outcome {s t : State} {b x : Byte} {a : Nat} {c : Cursor} {e : FrEvt} (hm : Memory.wf s.fr.buf)
    (ho : FrOutcome s x t) (hbuf : t.fr.buf = writeByte s.fr.buf a b) (hc : t.fr.cursor = c)
    (he : t.out.frEvt = e) (hp : t.out.pkt = s.out.pkt) :
    readByte t.fr.buf a = b ∧ OtherBytesSame s.fr.buf t.fr.buf a ∧ t.fr.cursor = c ∧ t.out.frEvt = e ∧
      t.out.pkt = s.out.pkt ∧ SameOutsideFr s t := by
  obtain ⟨hsame, hother⟩ := readByte_writeByte a b hm
  rw [← hbuf] at hsame hother
  exact ⟨hsame, hother, hc, he, hp, ho.sameOutside⟩

/-- Settles O6: both classes start a frame with their byte. -/
theorem startByteBeginsFrame : Obligations.StartByteBeginsFrame := by
  rintro s i b (⟨rfl, rfl⟩ | ⟨rfl, rfl⟩) h0 hm
  · exact ⟨_, rfl, stored_of_outcome hm (.start h0 (.inl rfl)) rfl rfl rfl rfl⟩
  · exact ⟨_, rfl, stored_of_outcome hm (.start h0 (.inr rfl)) rfl rfl rfl rfl⟩

/-- A length byte other than 0 is stored at index 1, and the frame goes on. -/
theorem accumulate_length {s : State} {b : Byte} (h1 : s.fr.cursor = 1#5) (hm : Memory.wf s.fr.buf) (hb : b ≠ 0#8) :
    readByte (accumulate b s).fr.buf 1 = b ∧ OtherBytesSame s.fr.buf (accumulate b s).fr.buf 1 ∧
      (accumulate b s).fr.cursor = 2#5 ∧ (accumulate b s).out.frEvt = .none ∧
      (accumulate b s).out.pkt = s.out.pkt ∧ SameOutsideFr s (accumulate b s) := by
  have hc : s.fr.cursor.toNat = 1 := by rw [h1]; rfl
  have ho : FrOutcome s b (accumulate b s) :=
    .accumulate (by rw [h1]; decide) (fun h => absurd h (by rw [hc]; decide)) (fun _ => hb)
  rcases accumulate_cases s b with ⟨hlast, -⟩ | ⟨-, he⟩
  · exact absurd (hc.symm.trans hlast) (by decide)
  · rw [hc] at he
    exact stored_of_outcome hm ho (by rw [he]; rfl) (by rw [he]; rfl) (by rw [he]; rfl) (by rw [he]; rfl)

/-- Settles O9: the three classes accumulate their byte, which is not 0. -/
theorem lengthByteIsStored : Obligations.LengthByteIsStored := by
  rintro s i b (⟨rfl, rfl⟩ | ⟨rfl, h2, -⟩ | ⟨rfl, h31⟩) h1 hm
  · exact ⟨_, rfl, accumulate_length h1 hm (by decide)⟩
  · exact ⟨_, rfl, accumulate_length h1 hm (by rintro rfl; exact absurd h2 (by decide))⟩
  · exact ⟨_, rfl, accumulate_length h1 hm (by rintro rfl; exact absurd h31 (by decide))⟩

/-- Settles O10: the length byte 0 is a framing error at index 1. -/
theorem zeroLengthIsBadEnd : Obligations.ZeroLengthIsBadEnd := by
  intro s h1 hm
  have hbuf : (frameError .badEnd (appendByte 0#8 s)).fr.buf = writeByte s.fr.buf 1 0#8 := by
    simp [appendByte, h1]
  exact ⟨_, rfl, stored_of_outcome hm (.zeroLength h1 rfl) hbuf rfl rfl rfl⟩

/-- Settles O12: the byte is stored by the framing error that it is. -/
theorem wrongEndByteDiscardsFrame : Obligations.WrongEndByteDiscardsFrame := fun _ _ hb h2 hend hm =>
  ⟨_, rfl, stored_of_outcome hm (.badEnd h2 hend hb) rfl rfl rfl rfl⟩

/-- Settles O8: the two things that an append which completes no frame can do. -/
theorem dataByteIsStored : Obligations.DataByteIsStored := by
  intro s b h2 hlen hm
  have h0 : s.fr.cursor ≠ 0#5 := by intro h; rw [h] at h2; exact absurd h2 (by decide)
  have h1 : s.fr.cursor ≠ 1#5 := by intro h; rw [h] at h2; exact absurd h2 (by decide)
  have ho : FrOutcome s b (accumulate b s) := .accumulate h0 (fun _ => hlen) (fun h => absurd h h1)
  obtain ⟨hsame, hother⟩ := readByte_writeByte s.fr.cursor.toNat b hm
  rcases accumulate_cases s b with ⟨hc, he⟩ | ⟨hc, he⟩ <;> rw [he] at ho
  · refine ⟨_, congrArg Host.Outcome.next he, hsame, hother, ?_, rfl, ho.sameOutside⟩
    rw [if_pos hc]
    exact ⟨rfl, rfl⟩
  · refine ⟨_, congrArg Host.Outcome.next he, hsame, hother, ?_, rfl, ho.sameOutside⟩
    rw [if_neg (Nat.ne_of_lt hc)]
    exact ⟨Nat.mod_eq_of_lt (by omega), rfl⟩

/-- The Packet of a complete frame reads the bytes before the end byte as they were, and the end byte as written. -/
theorem packetOf_writeByte_end {m : Memory} {c : Nat} (b : Byte) (hm : Memory.wf m)
    (hend : c + 1 = (readByte m 1).toNat + 2) (hlen : 2 ≤ (readByte m 1).toNat) :
    packetOf (writeByte m c b) =
      { start := readByte m 0, length := readByte m 1, type := readByte m 2,
        payload := (List.range ((readByte m 1).toNat - 2)).map fun k => readByte m (3 + k),
        endByte := b } := by
  have hbelow : ∀ x, x < c → readByte (writeByte m c b) x = readByte m x := fun x h =>
    readByte_writeByte_other b (Nat.ne_of_lt h)
  have hpayload : (List.range ((readByte m 1).toNat - 2)).map (fun k => readByte (writeByte m c b) (3 + k)) =
      (List.range ((readByte m 1).toNat - 2)).map fun k => readByte m (3 + k) :=
    List.map_congr_left fun k hk => hbelow _ (by have := List.mem_range.mp hk; omega)
  have hat : (readByte m 1).toNat + 1 = c := by omega
  simp only [packetOf, payloadOf, lengthByte, hbelow 0 (by omega), hbelow 1 (by omega), hbelow 2 (by omega), hpayload,
    hat, readByte_writeByte_same c b hm]

/-- Settles O11: the two things that the end byte can complete. -/
theorem endByteCompletesFrame : Obligations.EndByteCompletesFrame := by
  intro s h2 hend hm
  have hcap := s.fr.cursor.isLt
  have hlen : lengthByte (appendByte endByte9d s).fr.buf = readByte s.fr.buf 1 := readByte_one_writeByte _ h2
  obtain ⟨hsame, hother⟩ := readByte_writeByte s.fr.cursor.toNat endByte9d hm
  rcases completeFrame_cases (appendByte endByte9d s) with ⟨h, he⟩ | ⟨h, -, he⟩ | ⟨h, -⟩ <;> rw [hlen] at h
  · refine ⟨_, he, hsame, hother, rfl, ?_, (FrOutcome.badLength h2 hend h rfl).sameOutside⟩
    rw [if_pos (by omega)]
    exact ⟨rfl, rfl⟩
  · refine ⟨_, he, hsame, hother, rfl, ?_, (FrOutcome.packet h2 hend h rfl).sameOutside⟩
    rw [if_neg (by omega)]
    exact ⟨rfl, congrArg some (packetOf_writeByte_end _ hm hend h)⟩
  · omega

end Sys2Proof.Machine

/-! PROOFS of the family `other`: HI and DG (40 section 2; 42 sections 1 and 2). The ignored message classes set one
field of the event record, the digit classes one port. -/

namespace Sys2Proof.Machine

open Sys2Proof.Safety

/-- Settles O18: each of the three classes sets `hi_evt`. -/
theorem ignoredMessagesSetOnlyTheirCode : Obligations.IgnoredMessagesSetOnlyTheirCode := by
  rintro s i e (⟨len, payload, rfl, rfl⟩ | ⟨len, payload, rfl, rfl⟩ | ⟨type, len, payload, rfl, rfl⟩)
  all_goals exact ⟨_, rfl, rfl, rfl, rfl, sameOutsideHi_setHiEvt _ s⟩

/-- The row of a digit shows it at its port. -/
theorem exec_digitRow (port : Port) (d : Bool) (p : Pattern) (g : Digit) (s : State) :
    exec (digitRow port d p g) s = .next (setPort port ⟨g, d⟩ s) := by
  unfold digitRow
  split <;> rfl

/-- Settles O23: each class is the row of its digit. -/
theorem digitRowsShowTheirDigit : Obligations.DigitRowsShowTheirDigit := by
  intro s port d p i g h
  have hi : i = digitRow port d p g := by
    rcases h with h | h | h | h | h | h | h | h | h | h | h | h | h <;> obtain ⟨rfl, rfl⟩ := h <;> rfl
  rw [hi, exec_digitRow]
  exact ⟨_, rfl, shows_setPort port ⟨g, d⟩ s⟩

/-- Settles O26: the row of a digit byte acts as DG does on the byte. -/
theorem heightRunsDigitRows : Obligations.HeightRunsDigitRows := by
  intro s bh bt bo r3 r4
  simp only [exec_decodeDigit]
  rfl

end Sys2Proof.Machine

/-! PROOFS of the family `other`: the step (10 sections 8 to 11; 41 sections 1 and 3; 60 section 1; 70 section 1). What
a step can do is said once, as `StepOutcome`; what every step keeps is then a case split on it. -/

namespace Sys2Proof.Machine

open Sys2Proof.Safety

/-! ### What a step can do -/

/-- FR left `s1` and HI left `s2` in a clock step on `inp` from `s`, which keeps `rest` of its inputs. -/
structure StepPhases (inp : Input) (rest : List Input) (s s1 s2 : State) : Prop where
  byte : inp.rxValid = true → FrOutcome (beginStep { s with inputs := rest }) inp.rxData s1
  noByte : inp.rxValid = false → s1 = beginStep { s with inputs := rest }
  outsideFr : SameOutsideFr (beginStep { s with inputs := rest }) s1
  hi : HiOutcome s1 s2

/-- The state that PS and TX leave. -/
def afterPsTx (inp : Input) (s : State) : State := afterTx inp (psStep inp.nowMs s)

/-- What a step can do: nothing with no input left, a reset step, or the phases of a clock step. -/
inductive StepOutcome (s : State) : State → Prop
  | stopped : s.inputs = [] → StepOutcome s s
  | reset (inp : Input) (rest : List Input) : s.inputs = inp :: rest → inp.rst = true →
      StepOutcome s (resetStep inp.nowMs { s with inputs := rest })
  | clock (inp : Input) (rest : List Input) (s1 s2 : State) : s.inputs = inp :: rest → inp.rst = false →
      StepPhases inp rest s s1 s2 → StepOutcome s (afterPsTx inp s2)

section
variable {s t : State} {inp : Input} {rest : List Input}

/-- A step without reset goes through the phases. -/
theorem step_phases (hin : s.inputs = inp :: rest) (hrst : inp.rst = false) :
    ∃ s1 s2, step s = .next (afterPsTx inp s2) ∧ StepPhases inp rest s s1 s2 := by
  obtain ⟨s1, s2, -, hbyte, hnone, hfr, -, hhi, hstep⟩ := clockStep_phases inp { s with inputs := rest } hrst
  exact ⟨s1, s2, (step_of_inputs hin).trans hstep, hbyte, hnone, hfr, hhi⟩

/-- Settles O54: the step looks at the list of inputs first. -/
theorem stoppedClockKeepsState : Obligations.StoppedClockKeepsState := by
  intro s hin
  rw [step, hin]

theorem step_outcome (s : State) : ∃ t, step s = .next t ∧ StepOutcome s t := by
  cases hin : s.inputs with
  | nil => exact ⟨s, stoppedClockKeepsState s hin, .stopped hin⟩
  | cons inp rest =>
    cases hrst : inp.rst with
    | true => exact ⟨_, step_of_reset hin hrst, .reset inp rest hin hrst⟩
    | false =>
      obtain ⟨s1, s2, hstep, hph⟩ := step_phases hin hrst
      exact ⟨_, hstep, .clock inp rest s1 s2 hin hrst hph⟩

/-- A step answers one state. -/
theorem step_next_unique {u : State} (h : step s = .next t) (h' : step s = .next u) : t = u :=
  Host.Outcome.next.inj (h.symm.trans h')

theorem StepOutcome.of_step (h : step s = .next t) : StepOutcome s t := by
  obtain ⟨u, hu, ho⟩ := step_outcome s
  rwa [step_next_unique h hu]

end

/-- Settles O42: by `step_outcome`. -/
theorem stepNeverStops : Obligations.StepNeverStops := fun s =>
  let ⟨t, ht, _⟩ := step_outcome s
  ⟨t, ht⟩

/-! ### The instructions of a step (10 R33) -/

/-- Settles O40: FR decodes in the place that its registers say, which the start of the step leaves. -/
theorem stepExecutesReceivedByte : Obligations.StepExecutesReceivedByte := by
  intro s inp rest hin hrst
  have hclock : step s = andThen (frPhase inp (beginStep { s with inputs := rest })) (afterFr inp) := by
    rw [step_of_inputs hin, clockStep, hrst, if_neg Bool.false_ne_true]
  refine ⟨fun hv => ?_, fun hv => ?_⟩
  · rw [hclock, frPhase, if_pos hv]
    rfl
  · rw [hclock, frPhase, hv, if_neg Bool.false_ne_true]
    rfl

/-- Settles O41: by the Packet that FR delivered and the request that PS made. -/
theorem stepExecutesMessageAndCommand : Obligations.StepExecutesMessageAndCommand := by
  refine fun s inp => ⟨rfl, fun p hp => ?_, fun hp => ?_, fun hq => ?_, fun hq => ?_, fun hq => ?_⟩
  · rw [hiPhase, hp]; rfl
  · rw [hiPhase, hp]
  · rw [txPhase, hq]; rfl
  · rw [txPhase, hq]; rfl
  · rw [txPhase, hq]

/-- Settles O44: a reset step reads the clock only. -/
theorem resetOverridesInputs : Obligations.ResetOverridesInputs := by
  intro s rest i j hi hj hnow
  have hreset : ∀ k : Input, k.rst = true →
      step { s with inputs := k :: rest } = .next (resetStep k.nowMs { s with inputs := rest }) :=
    fun k hk => step_of_reset rfl hk
  rw [hreset i hi, hreset j hj, hnow]

/-! ### The parts of the state after the phases -/

section
variable {inp : Input} {rest : List Input} {s s1 s2 : State}

@[simp] theorem afterPsTx_fr (s : State) : (afterPsTx inp s).fr = s.fr := by simp [afterPsTx]
@[simp] theorem afterPsTx_hi (s : State) : (afterPsTx inp s).hi = s.hi := by simp [afterPsTx]
@[simp] theorem afterPsTx_cfg (s : State) : (afterPsTx inp s).cfg = s.cfg := by simp [afterPsTx]
@[simp] theorem afterPsTx_segTable (s : State) : (afterPsTx inp s).segTable = s.segTable := by simp [afterPsTx]
@[simp] theorem afterPsTx_inputs (s : State) : (afterPsTx inp s).inputs = s.inputs := by simp [afterPsTx]
@[simp] theorem afterPsTx_frEvt (s : State) : (afterPsTx inp s).out.frEvt = s.out.frEvt := by simp [afterPsTx]
@[simp] theorem afterPsTx_pkt (s : State) : (afterPsTx inp s).out.pkt = s.out.pkt := by simp [afterPsTx]
@[simp] theorem afterPsTx_hiEvt (s : State) : (afterPsTx inp s).out.hiEvt = s.out.hiEvt := by simp [afterPsTx]
@[simp] theorem afterPsTx_activity (s : State) : (afterPsTx inp s).out.activity = s.out.activity := by
  simp [afterPsTx]
@[simp] theorem afterPsTx_pub (s : State) : (afterPsTx inp s).out.pub = s.out.pub := by simp [afterPsTx]
@[simp] theorem afterPsTx_reading (s : State) : (afterPsTx inp s).wires.reading = s.wires.reading := by
  simp [afterPsTx]

/-- The units after FR leave its registers and its fields of the event record. -/
theorem StepPhases.fr (h : StepPhases inp rest s s1 s2) :
    (afterPsTx inp s2).fr = s1.fr ∧ (afterPsTx inp s2).out.frEvt = s1.out.frEvt ∧
      (afterPsTx inp s2).out.pkt = s1.out.pkt := by
  obtain ⟨hfr, -, -, -, -, -, -, -, hevt, hpkt, -⟩ := h.hi.sameOutside
  simp only [afterPsTx_fr, afterPsTx_frEvt, afterPsTx_pkt]
  exact ⟨hfr, hevt, hpkt⟩

/-- No unit writes the configuration, the segment table or the inputs that are left. -/
theorem StepPhases.kept (h : StepPhases inp rest s s1 s2) :
    (afterPsTx inp s2).cfg = s.cfg ∧ (afterPsTx inp s2).segTable = s.segTable ∧
      (afterPsTx inp s2).inputs = rest := by
  obtain ⟨-, -, -, hcfg, hseg, hin, -⟩ := h.outsideFr
  obtain ⟨-, -, -, hcfg', hseg', hin', -⟩ := h.hi.sameOutside
  simp only [afterPsTx_cfg, afterPsTx_segTable, afterPsTx_inputs]
  exact ⟨hcfg'.trans hcfg, hseg'.trans hseg, hin'.trans hin⟩

end

/-- Settles O49: by the outcomes of a step. -/
theorem configurationNeverWritten : Obligations.ConfigurationNeverWritten := by
  intro s t h
  cases StepOutcome.of_step h with
  | stopped hin => rw [hin]; exact ⟨rfl, rfl, rfl⟩
  | reset inp rest hin => rw [hin]; exact ⟨rfl, rfl, rfl⟩
  | clock inp rest s1 s2 hin _ hph => rw [hin]; exact hph.kept

/-! ### FR in a step (41 sections 1 and 3) -/

/-- Settles O15: FR does nothing in such a step, and the units after it leave its part. -/
theorem receiverWaitsForAByte : Obligations.ReceiverWaitsForAByte := by
  intro s inp rest hin hidle
  cases hrst : inp.rst with
  | true => exact ⟨_, step_of_reset hin hrst, rfl, rfl, rfl, Bool.noConfusion⟩
  | false =>
    obtain ⟨s1, s2, hstep, hph⟩ := step_phases hin hrst
    obtain ⟨hfr, hevt, hpkt⟩ := hph.fr
    have hs1 := hph.noByte (hidle.resolve_right (by rw [hrst]; decide))
    subst hs1
    exact ⟨_, hstep, congrArg FrRegs.buf hfr, hevt, hpkt, fun _ => congrArg FrRegs.cursor hfr⟩

section
variable {s t : State} {b : Byte}

/-- Every event of FR sets the cursor to 0 (41 R129). -/
theorem FrOutcome.scanning_of_evt (h : FrOutcome s b t) (he : t.out.frEvt ≠ .none) : t.fr.cursor = 0#5 := by
  cases h with
  | start | noise => exact absurd rfl he
  | zeroLength | badEnd | badLength | packet => rfl
  | accumulate =>
    rcases accumulate_cases s b with ⟨-, ha⟩ | ⟨-, ha⟩
    · rw [ha]; rfl
    · rw [ha] at he; exact absurd rfl he

/-- The only byte that FR writes to the buffer is the received one, at the cursor. -/
theorem FrOutcome.buf (h : FrOutcome s b t) :
    t.fr.buf = s.fr.buf ∨ t.fr.buf = writeByte s.fr.buf s.fr.cursor.toNat b := by
  cases h with
  | noise => exact .inl rfl
  | start h0 => rw [h0]; exact .inr rfl
  | accumulate =>
    rcases accumulate_cases s b with ⟨-, ha⟩ | ⟨-, ha⟩ <;> rw [ha] <;> exact .inr rfl
  | zeroLength | badEnd | badLength | packet => exact .inr rfl

theorem FrOutcome.wf_buf (h : FrOutcome s b t) (hm : Memory.wf s.fr.buf) : Memory.wf t.fr.buf := by
  rcases h.buf with hb | hb <;> rw [hb]
  · exact hm
  · exact wf_writeByte b hm s.fr.cursor.isLt

/-- A byte that leaves the frame open: it is stored at the cursor, which advances without an event; the first byte of
a frame is a start byte, and no later one completes the frame. -/
structure FrAdvance (s : State) (b : Byte) (t : State) : Prop where
  buf : t.fr.buf = writeByte s.fr.buf s.fr.cursor.toNat b
  cursor : t.fr.cursor.toNat = s.fr.cursor.toNat + 1
  start : s.fr.cursor.toNat = 0 → b = 0x9B#8 ∨ b = 0x98#8
  incomplete : s.fr.cursor.toNat ≠ 0 → s.fr.cursor.toNat + 1 ≠ (readByte t.fr.buf 1).toNat + 2

/-- After a byte FR is scanning, or the byte has advanced the open frame. -/
theorem FrOutcome.scanning_or_advance (h : FrOutcome s b t) (hm : Memory.wf s.fr.buf) :
    t.fr.cursor = 0#5 ∨ FrAdvance s b t := by
  cases h with
  | noise h0 => exact .inl h0
  | zeroLength | badEnd | badLength | packet => exact .inl rfl
  | start h0 hb =>
    exact .inr ⟨by rw [h0]; rfl, by rw [h0]; rfl, fun _ => hb, fun hne => absurd (by rw [h0]; rfl) hne⟩
  | accumulate h0 hlen hzero =>
    rcases accumulate_cases s b with ⟨-, ha⟩ | ⟨hc, ha⟩ <;> rw [ha]
    · exact .inl rfl
    · exact .inr ⟨rfl, Nat.mod_eq_of_lt (by omega), fun h => absurd (BitVec.eq_of_toNat_eq h) h0,
        fun _ => not_complete_of_append hm h0 hlen hzero⟩

/-- What FR makes of a byte in a step with no Packet before it: no Packet, or the Packet of the frame that the byte
ends. -/
theorem FrOutcome.delivered (h : FrOutcome s b t) (hm : Memory.wf s.fr.buf) (hp : s.out.pkt = none) :
    (t.out.pkt = none ∧ t.out.frEvt ≠ .packet) ∨
    (2 ≤ s.fr.cursor.toNat ∧ s.fr.cursor.toNat + 1 = (readByte s.fr.buf 1).toNat + 2 ∧
      2 ≤ (readByte s.fr.buf 1).toNat ∧ b = 0x9D#8 ∧ t.out.frEvt = .packet ∧
      t.out.pkt = some
        { start := readByte s.fr.buf 0, length := readByte s.fr.buf 1, type := readByte s.fr.buf 2,
          payload := (List.range ((readByte s.fr.buf 1).toNat - 2)).map fun k => readByte s.fr.buf (3 + k),
          endByte := b }) := by
  cases h with
  | start | noise | zeroLength | badEnd | badLength => exact .inl ⟨hp, FrEvt.noConfusion⟩
  | accumulate =>
    rcases accumulate_cases s b with ⟨-, ha⟩ | ⟨-, ha⟩ <;> rw [ha] <;> exact .inl ⟨hp, FrEvt.noConfusion⟩
  | packet h2 hend hlen hb =>
    exact .inr ⟨h2, hend, hlen, hb, rfl, congrArg some (packetOf_writeByte_end b hm hend hlen)⟩

end

/-- Settles O16: a step without a byte has no event of FR, and one with a byte sets the cursor with its event. -/
theorem everyFrameEventEndsTheFrame : Obligations.EveryFrameEventEndsTheFrame := by
  intro s inp rest hin hrst
  obtain ⟨s1, s2, hstep, hph⟩ := step_phases hin hrst
  obtain ⟨hfr, hevt, -⟩ := hph.fr
  refine ⟨_, hstep, fun hne => ?_⟩
  rw [hevt] at hne
  rw [hfr]
  cases hv : inp.rxValid with
  | true => exact (hph.byte hv).scanning_of_evt hne
  | false => rw [hph.noByte hv] at hne; exact absurd rfl hne

/-- Settles O46: a step writes the buffer through FR only. -/
theorem bufferStaysCanonical : Obligations.BufferStaysCanonical := by
  intro s t hm h
  cases StepOutcome.of_step h with
  | stopped | reset => exact hm
  | clock inp rest s1 s2 _ _ hph =>
    obtain ⟨hfr, -, -⟩ := hph.fr
    rw [hfr]
    cases hv : inp.rxValid with
    | true => exact (hph.byte hv).wf_buf hm
    | false => rw [hph.noByte hv]; exact hm

/-- The fields of a Packet that 30 R70 to R74 fix. -/
def ValidPacket (p : Packet) : Prop :=
  (p.start = 0x9B#8 ∨ p.start = 0x98#8) ∧ 2 ≤ p.length.toNat ∧ p.length.toNat ≤ 30 ∧
    p.payload.length + 2 = p.length.toNat ∧ p.endByte = 0x9D#8

/-- What 41 section 3 says of a step that leaves `t`. -/
def Framed (t : State) : Prop :=
  (∀ p, t.out.pkt = some p → ValidPacket p) ∧ (t.out.pkt.isSome = true ↔ t.out.frEvt = .packet)

theorem framed_of_no_packet {t : State} (hp : t.out.pkt = none) (he : t.out.frEvt ≠ .packet) : Framed t := by
  simp [Framed, hp, he]

theorem framed_of_packet {t : State} {p : Packet} (hp : t.out.pkt = some p) (he : t.out.frEvt = .packet)
    (hv : ValidPacket p) : Framed t := by
  simp [Framed, hp, he, hv]

/-- A byte received in a frame that a start byte began gives a valid Packet or none. -/
theorem FrOutcome.framed {s t : State} {b : Byte} (h : FrOutcome s b t) (hm : Memory.wf s.fr.buf)
    (hst : FrameStarted s) (hp : s.out.pkt = none) : Framed t := by
  have hcap := s.fr.cursor.isLt
  rcases h.delivered hm hp with ⟨hp', he⟩ | ⟨h2, hend, hlen, hb, he, hp'⟩
  · exact framed_of_no_packet hp' he
  · refine framed_of_packet hp' he ⟨hst (by omega), hlen, ?_, ?_, hb⟩
    · simp only; omega
    · rw [List.length_map, List.length_range]; exact Nat.sub_add_cancel hlen

/-- Settles O17: the Packet of a step is that of the frame which its byte ends. -/
theorem deliveredPacketIsValid : Obligations.DeliveredPacketIsValid := by
  rintro s inp rest ⟨hm, -, hst, -, -⟩ hin
  suffices h : ∃ t, step s = .next t ∧ Framed t from h
  cases hrst : inp.rst with
  | true => exact ⟨_, step_of_reset hin hrst, framed_of_no_packet rfl FrEvt.noConfusion⟩
  | false =>
    obtain ⟨s1, s2, hstep, hph⟩ := step_phases hin hrst
    obtain ⟨-, hevt, hpkt⟩ := hph.fr
    refine ⟨_, hstep, ?_⟩
    rw [Framed, hevt, hpkt]
    cases hv : inp.rxValid with
    | false => rw [hph.noByte hv]; exact framed_of_no_packet rfl FrEvt.noConfusion
    | true => exact (hph.byte hv).framed hm hst rfl

end Sys2Proof.Machine

/-! PROOFS of the family `other`: PS (00 section 5; 43 section 3). The rule of BootWait, and what a busy TX keeps from
happening. -/

namespace Sys2Proof.Machine

open Sys2Proof.Safety

/-- Settles O35: subtraction of words is subtraction modulo `2 ^ 32`. -/
theorem elapsedIsModular : Obligations.ElapsedIsModular := by
  intro now ref
  have hnow := now.isLt
  have href := ref.isLt
  rw [elapsed, BitVec.toNat_sub]
  omega

/-! ### BootWait (43 R187) -/

section
variable {n : Time} {s t : State}

/-- BOOTWAIT-STEP in a step in which PS has signalled nothing yet. -/
theorem PsOutcome.bootWaitResult (h : PsOutcome n s t) (hp : s.ps.psState = .bootWait) (hreq : s.out.txReq = none)
    (hevt : s.out.psEvt = .none) :
    if s.cfg.bootDelay < elapsed n s.ps.bootTime ∧ s.tx.txBusy = false then
      PsResult t .idle n (some s.cfg.bootCmd) .bootToIdle
    else PsResult t .bootWait s.ps.lastPollTime none .none := by
  cases h with
  | bootToIdle _ hd => rw [if_pos hd]; exact ⟨rfl, rfl, rfl, rfl⟩
  | bootWaits _ hd => rw [if_neg hd]; exact ⟨hp, rfl, hreq, hevt⟩
  | idleToActive hp' | idlePoll hp' | idles hp' | activeToIdle hp' | activePoll hp' | staysActive hp' =>
    exact PsState.noConfusion (hp.symm.trans hp')

/-- The transition writes nothing of TX's. -/
theorem PsOutcome.tx (h : PsOutcome n s t) : t.tx = s.tx ∧ t.wires.txSent = s.wires.txSent := by
  cases h <;> exact ⟨rfl, rfl⟩

/-- While TX is busy no poll fires: no request, the time of the last poll is kept, and BootWait is not left (43
R190). -/
theorem PsOutcome.of_busy (h : PsOutcome n s t) (hbusy : s.tx.txBusy = true) :
    t.out.txReq = s.out.txReq ∧ t.ps.lastPollTime = s.ps.lastPollTime ∧
      (s.ps.psState = .bootWait → t.ps.psState = .bootWait) := by
  cases h with
  | bootWaits | idles | staysActive => exact ⟨rfl, rfl, id⟩
  | idleToActive hp | activeToIdle hp => exact ⟨rfl, rfl, fun hb => PsState.noConfusion (hp.symm.trans hb)⟩
  | bootToIdle _ hd | idlePoll _ _ hd | activePoll _ _ hd => exact Bool.noConfusion (hbusy.symm.trans hd.2)

end

/-- Settles O28: the transition's outcomes in BootWait. -/
theorem bootWaitStepFollowsRule : Obligations.BootWaitStepFollowsRule := by
  intro s inp rest hin hrst hp
  obtain ⟨u, v, hstep, hu, hv⟩ := step_transition hin hrst
  obtain ⟨hboot, -, -, -, -⟩ := hv.kept
  have hrule := hv.bootWaitResult (by rw [hu.ps]; exact hp) hu.txReq hu.psEvt
  rw [hu.cfg, hu.tx, hu.ps] at hrule
  refine ⟨_, hstep, ?_, ?_⟩
  · rw [afterTx_ps, hboot, hu.ps]
  · simp only [afterTx_ps, afterTx_out]
    exact hrule

/-! ### Requests (43 R190, R213) -/

section
variable {inp : Input} {s : State}

/-- TX takes the request of the step (44 R213). -/
theorem afterTx_tx_of_request {v : Variant} (h : s.out.txReq = some v) :
    (afterTx inp s).tx = { txBusy := true, txSel := v, txIdx := 0#3 } := by
  rw [afterTx, h]
  rfl

/-- Without a request TX sends and advances only. -/
theorem afterTx_of_no_request (h : s.out.txReq = none) : afterTx inp s = advance inp.txReady s := by
  rw [afterTx, h]

end

/-- Settles O32: with TX busy the step has no request, and a request of the step is taken. -/
theorem requestsWaitForTransmitter : Obligations.RequestsWaitForTransmitter := by
  intro s inp rest hin hrst
  obtain ⟨u, v, hstep, hu, hv⟩ := step_transition hin hrst
  have hbusy : s.tx.txBusy = true → v.out.txReq = none ∧ v.ps.lastPollTime = s.ps.lastPollTime ∧
      (s.ps.psState = .bootWait → v.ps.psState = .bootWait) := by
    intro hb
    have hkept := hv.of_busy (by rw [hu.tx]; exact hb)
    rw [hu.txReq, hu.ps] at hkept
    exact hkept
  refine ⟨_, hstep, fun w hw => ?_, fun hb => ?_⟩
  · rw [afterTx_out] at hw
    refine ⟨?_, afterTx_tx_of_request hw⟩
    by_contra hb
    obtain ⟨hnone, -⟩ := hbusy (eq_true_of_ne_false hb)
    cases hnone.symm.trans hw
  · rw [afterTx_out, afterTx_ps]
    exact hbusy hb

end Sys2Proof.Machine

/-! PROOFS of the family `other`: the invariant of 10 section 11, one part after the other: what a phase of the step
does to the part that it writes. -/

namespace Sys2Proof.Machine

open Sys2Proof.Safety

/-! ### The open frame (10 R39, item 2; 41 R122) -/

section
variable {s t : State} {b : Byte}

/-- The two facts about the frame that FR holds. -/
def FrameInv (s : State) : Prop := FrameOpen s ∧ FrameStarted s

theorem frameInv_of_fr_eq (h : t.fr = s.fr) (hi : FrameInv s) : FrameInv t := by
  unfold FrameInv FrameOpen FrameStarted
  rw [h]
  exact hi

/-- In scanning there is no frame. -/
theorem frameInv_of_scanning (h : s.fr.cursor = 0#5) : FrameInv s := by
  have hc : s.fr.cursor.toNat = 0 := by rw [h]; rfl
  constructor <;> intro hle <;> omega

/-- A byte that advances the frame leaves it below its expected length, and its first byte a start byte. -/
theorem FrAdvance.frameInv (h : FrAdvance s b t) (hm : Memory.wf s.fr.buf) (hi : FrameInv s) : FrameInv t := by
  obtain ⟨hopen, hstart⟩ := hi
  have hcursor := h.cursor
  have hinc := h.incomplete
  refine ⟨fun h2 => ?_, fun _ => ?_⟩
  · rw [h.buf] at hinc ⊢
    by_cases h1 : s.fr.cursor.toNat = 1
    · omega
    · rw [readByte_one_writeByte b (by omega)] at hinc ⊢
      have := hopen (by omega)
      omega
  · rw [h.buf]
    by_cases h0 : s.fr.cursor.toNat = 0
    · rw [h0, readByte_writeByte_same 0 b hm]
      exact h.start h0
    · rw [readByte_writeByte_other b (Ne.symm h0)]
      exact hstart (Nat.pos_of_ne_zero h0)

theorem FrOutcome.frameInv (h : FrOutcome s b t) (hm : Memory.wf s.fr.buf) (hi : FrameInv s) : FrameInv t := by
  rcases h.scanning_or_advance hm with h0 | hadv
  · exact frameInv_of_scanning h0
  · exact hadv.frameInv hm hi

end

/-! ### The heights (10 R39, items 3 and 4) -/

section
variable {s t : State}

theorem heightsAgree_of_hi_eq (h : t.hi = s.hi) (hs : HeightsAgree s) : HeightsAgree t := by
  unfold HeightsAgree
  rw [h]
  exact hs

/-- A committed reading is the published height too: where it is not published, it is the one published last. -/
theorem heightsAgree_commitReading {v : Height} (s : State) (h1 : 1 ≤ v.toNat) (h2 : v.toNat ≤ 9990) :
    HeightsAgree (commitReading v s) := by
  unfold HeightsAgree
  rw [commitReading_hi]
  by_cases hp : publishFlag s.hi v = true
  · rw [committedHi_of_publish hp]
    exact ⟨rfl, fun _ => ⟨rfl, h1, h2⟩⟩
  · rw [committedHi_of_not_publish hp]
    rw [publishFlag_eq_true_iff h1, not_or, not_not] at hp
    obtain ⟨hvalid, heq⟩ := hp
    exact ⟨(eq_true_of_ne_false hvalid).symm, fun _ => ⟨heq, h1, h2⟩⟩

theorem HiOutcome.heightsAgree (h : HiOutcome s t) (hs : HeightsAgree s) : HeightsAgree t := by
  cases h with
  | idle | code => exact hs
  | height p h t o =>
    cases hj : judgeHeight (segRom s.segTable (patternOf h)) (segRom s.segTable (patternOf t))
      (segRom s.segTable (patternOf o)) (hasDecimal t) with
    | ignored e => exact hs
    | reading v =>
      obtain ⟨h1, h2⟩ := judgeHeight_range hj
      exact heightsAgree_commitReading (withDigits h t o s) h1 h2

end

/-! ### TX at rest (43 R187; 44 R212) -/

section
variable {n : Time} {s t : State}

/-- SEND and ADVANCE leave a free TX at index 0. -/
theorem advance_rests (r : Bool) (hs : s.tx.txBusy = false → s.tx.txIdx = 0#3) :
    (advance r s).tx.txBusy = false → (advance r s).tx.txIdx = 0#3 := by
  rcases advance_cases s r with ⟨hbusy, -, he⟩ | ⟨-, he⟩ <;> rw [he]
  · simp only [withWires_tx, withTx_tx, advancedTx]
    split
    · exact fun _ => rfl
    · exact fun hfree => absurd (hbusy.symm.trans hfree) Bool.noConfusion
  · exact hs

/-- A free TX stays as it is without a request. -/
theorem advance_of_free (r : Bool) (hfree : s.tx.txBusy = false) : advance r s = s := by
  rw [advance, hfree, Bool.false_and, if_neg Bool.false_ne_true]

/-- The transition that leaves PS in BootWait did nothing. -/
theorem PsOutcome.eq_of_bootWait (h : PsOutcome n s t) (hp : t.ps.psState = .bootWait) :
    t = s ∧ s.ps.psState = .bootWait := by
  cases h with
  | bootWaits hp' => exact ⟨rfl, hp'⟩
  | bootToIdle | idleToActive | activeToIdle | idlePoll | activePoll => cases hp
  | idles hp' | staysActive hp' => exact PsState.noConfusion (hp'.symm.trans hp)

/-- TX after a step is free only at index 0, and is free if PS is in BootWait. -/
theorem transmitterRests_step {inp : Input} {rest : List Input} (hin : s.inputs = inp :: rest)
    (hrst : inp.rst = false) (hs : TransmitterRests s) (hstep : step s = .next t) : TransmitterRests t := by
  obtain ⟨hboot, hfree⟩ := hs
  obtain ⟨u, v, hstep', hu, hv⟩ := step_transition hin hrst
  obtain ⟨htx, -⟩ := hv.tx
  rw [hu.tx] at htx
  rw [step_next_unique hstep hstep']
  refine ⟨fun hb => ?_, fun hb => ?_⟩
  · rw [afterTx_ps] at hb
    obtain ⟨rfl, hp⟩ := hv.eq_of_bootWait hb
    have hsfree : v.tx.txBusy = false := by rw [hu.tx]; exact hboot (by rw [hu.ps] at hp; exact hp)
    rw [afterTx_of_no_request hu.txReq, advance_of_free _ hsfree]
    exact hsfree
  · cases hq : v.out.txReq with
    | some w => rw [afterTx_tx_of_request hq] at hb; cases hb
    | none =>
      rw [afterTx_of_no_request hq] at hb ⊢
      exact advance_rests inp.txReady (by rw [htx]; exact hfree) hb

end

/-! ### The invariant -/

/-- Settles O47: FR keeps the part of the buffer and the frame, HI that of the heights, PS and TX that of TX. -/
theorem invariantKept : Obligations.InvariantKept := by
  rintro s t ⟨hm, hopen, hstart, hheights, htx⟩ h
  have hm' : Memory.wf t.fr.buf := bufferStaysCanonical s t hm h
  cases StepOutcome.of_step h with
  | stopped => exact ⟨hm, hopen, hstart, hheights, htx⟩
  | reset =>
    obtain ⟨hopen', hstart'⟩ := frameInv_of_scanning (s := resetStep _ _) rfl
    exact ⟨hm', hopen', hstart', ⟨rfl, Bool.noConfusion⟩, fun _ => rfl, fun _ => rfl⟩
  | clock inp rest s1 s2 hin hrst hph =>
    obtain ⟨hfr, -, -⟩ := hph.fr
    have hframe : FrameInv s1 := by
      cases hv : inp.rxValid with
      | true => exact (hph.byte hv).frameInv hm ⟨hopen, hstart⟩
      | false => rw [hph.noByte hv]; exact ⟨hopen, hstart⟩
    obtain ⟨hopen', hstart'⟩ := frameInv_of_fr_eq hfr hframe
    obtain ⟨hhi, -⟩ := hph.outsideFr
    have hheights' : HeightsAgree s2 := hph.hi.heightsAgree (heightsAgree_of_hi_eq hhi hheights)
    exact ⟨hm', hopen', hstart', heightsAgree_of_hi_eq (afterPsTx_hi s2) hheights',
      transmitterRests_step hin hrst htx h⟩

/-- Settles O48: in the state after reset no frame is open, no height is valid and TX is free at index 0. -/
theorem invariantAtReset : Obligations.InvariantAtReset := by
  obtain ⟨hopen, hstart⟩ := frameInv_of_scanning (s := State.reset) rfl
  exact ⟨⟨List.Pairwise.nil, by simp [State.reset]⟩, hopen, hstart, ⟨rfl, Bool.noConfusion⟩, fun _ => rfl,
    fun _ => rfl⟩

/-- Settles O45: by evaluating the state after reset. -/
theorem resetStateValues : Obligations.ResetStateValues :=
  ⟨rfl, rfl, rfl, rfl, rfl, rfl, rfl, rfl, rfl⟩

/-- Settles O53: by evaluating the codes. -/
theorem eventCodes : Obligations.EventCodes := ⟨rfl, rfl, rfl, rfl⟩

end Sys2Proof.Machine

/-! PROOFS of the family `other`: TX (44), and the two limits of PS that no elapsed time exceeds (70 section 2). What TX
does in one step; then runs, by induction on their inputs. -/

namespace Sys2Proof.Machine

open Sys2Proof.Safety

/-! ### TX in a step (44 R211 to R213) -/

/-- Settles O36: each of the two commands is accepted. -/
theorem commandIsAccepted : Obligations.CommandIsAccepted := by
  rintro s i v (⟨rfl, rfl⟩ | ⟨rfl, rfl⟩)
  all_goals exact ⟨_, rfl, rfl, rfl, rfl, rfl, rfl, rfl, rfl, rfl, rfl, rfl⟩

section
variable {inp : Input} {rest : List Input} {s t : State}

/-- A step without reset hands TX the registers it had, no byte sent, and, while TX is busy, no request. -/
theorem step_tx (hin : s.inputs = inp :: rest) (hrst : inp.rst = false) :
    ∃ v, step s = .next (afterTx inp v) ∧ v.tx = s.tx ∧ v.wires.txSent = none ∧
      (s.tx.txBusy = true → v.out.txReq = none) := by
  obtain ⟨s1, s2, hstep, hph⟩ := step_phases hin hrst
  obtain ⟨-, -, htx, -, -, -, hwires, -, -, -, -, -, hreq⟩ := hph.outsideFr
  obtain ⟨-, -, htx', -, -, -, -, hsent, -, -, -, hreq'⟩ := hph.hi.sameOutside
  have htx2 : s2.tx = s.tx := htx'.trans htx
  refine ⟨_, hstep, (psStep_tx _ _).trans htx2, ?_, fun hb => ?_⟩
  · rw [psStep_wires, hsent, hwires]
    rfl
  · obtain ⟨hq, -⟩ := (transition_outcome inp.nowMs (activityUpdate inp.nowMs s2)).of_busy
      (by rw [activityUpdate_eq, withPs_tx, htx2]; exact hb)
    rw [activityUpdate_eq, withPs_out, hreq', hreq] at hq
    rw [psStep, activityUpdate_eq, hq]
    rfl

/-- ACCEPT sends nothing. -/
theorem afterTx_txSent : (afterTx inp s).wires.txSent = (advance inp.txReady s).wires.txSent := by
  unfold afterTx
  split <;> rfl

/-- Nothing is sent in a step that starts with TX free, or without a handshake. -/
theorem step_silent (hin : s.inputs = inp :: rest) (hrst : inp.rst = false)
    (hno : s.tx.txBusy = false ∨ inp.txReady = false) (hstep : step s = .next t) : t.wires.txSent = none := by
  obtain ⟨v, hstep', htx, hsent, -⟩ := step_tx hin hrst
  rw [step_next_unique hstep hstep', afterTx_txSent]
  rw [← htx] at hno
  rcases advance_cases v inp.txReady with ⟨hbusy, hready, -⟩ | ⟨-, he⟩
  · simp [hbusy, hready] at hno
  · rw [he, hsent]

end

/-- After a transfer the index has moved on, or TX is free at index 0 (44 R212). -/
theorem advancedTx_of_busy {r : TxRegs} (hbusy : r.txBusy = true) :
    (advancedTx r).txSel = r.txSel ∧
      if r.txIdx = 7#3 then (advancedTx r).txBusy = false ∧ (advancedTx r).txIdx = 0#3
      else (advancedTx r).txBusy = true ∧ (advancedTx r).txIdx = r.txIdx + 1#3 := by
  unfold advancedTx
  split
  · exact ⟨rfl, rfl, rfl⟩
  · exact ⟨rfl, hbusy, rfl⟩

/-- Settles O37: with TX busy PS makes no request, so TX sends and advances only. -/
theorem handshakeSendsOneByte : Obligations.HandshakeSendsOneByte := by
  intro s inp rest hin hrst hbusy
  obtain ⟨v, hstep, htx, hsent, hreq⟩ := step_tx hin hrst
  refine ⟨_, hstep, ?_⟩
  rw [afterTx_of_no_request (hreq hbusy), ← htx]
  rw [← htx] at hbusy
  rcases advance_cases v inp.txReady with ⟨-, hready, he⟩ | ⟨hno, he⟩
  · obtain ⟨hsel, hnext⟩ := advancedTx_of_busy hbusy
    rw [he, if_pos hready]
    exact ⟨hsel, rfl, hnext⟩
  · have hready : inp.txReady = false := hno.resolve_left (by rw [hbusy]; decide)
    rw [he, hready, if_neg Bool.false_ne_true]
    exact ⟨rfl, hsent, rfl⟩

/-! ### Runs -/

/-- Every step on an input with `C` keeps `P`. -/
def KeptOn (C : Input → Prop) (P : State → Prop) : Prop :=
  ∀ {s t : State} {inp : Input} {rest : List Input},
    s.inputs = inp :: rest → C inp → P s → step s = .next t → P t

/-- A step on an input with `C` from a state with `P` sends nothing. -/
def SilentOn (C : Input → Prop) (P : State → Prop) : Prop :=
  ∀ {s t : State} {inp : Input} {rest : List Input},
    s.inputs = inp :: rest → C inp → P s → step s = .next t → t.wires.txSent = none

section
variable {C : Input → Prop} {P : State → Prop} {s t : State} {inp : Input} {inps rest : List Input}

/-- A step takes the oldest input. -/
theorem step_inputs (hin : s.inputs = inp :: rest) (h : step s = .next t) : t.inputs = rest := by
  obtain ⟨-, -, htail⟩ := configurationNeverWritten s t h
  rw [htail, hin]
  rfl

theorem sentBytes_succ_of_step (n : Nat) (h : step s = .next t) :
    sentBytes (n + 1) s = t.wires.txSent.toList ++ sentBytes n t := by
  rw [sentBytes, h]

/-- What every step keeps, every run keeps. -/
theorem KeptOn.run (hP : KeptOn C P) (hin : s.inputs = inps ++ rest) (hC : ∀ i ∈ inps, C i) (hs : P s) :
    ∃ t, Host.Core.run core inps.length s = .next t ∧ t.inputs = rest ∧ P t := by
  induction inps generalizing s with
  | nil => exact ⟨s, rfl, hin, hs⟩
  | cons inp inps ih =>
    obtain ⟨hC₀, hC'⟩ := List.forall_mem_cons.mp hC
    obtain ⟨u, hstep⟩ := stepNeverStops s
    obtain ⟨t, hrun, ht⟩ := ih (step_inputs hin hstep) hC' (hP hin hC₀ hs hstep)
    exact ⟨t, (run_succ_of_step hstep).trans hrun, ht⟩

/-- A run of silent steps sends nothing. -/
theorem KeptOn.sentBytes_eq_nil (hP : KeptOn C P) (hQ : SilentOn C P) (hin : s.inputs = inps ++ rest)
    (hC : ∀ i ∈ inps, C i) (hs : P s) : sentBytes inps.length s = [] := by
  induction inps generalizing s with
  | nil => rfl
  | cons inp inps ih =>
    obtain ⟨hC₀, hC'⟩ := List.forall_mem_cons.mp hC
    obtain ⟨u, hstep⟩ := stepNeverStops s
    rw [List.length_cons, sentBytes_succ_of_step _ hstep, hQ hin hC₀ hs hstep,
      ih (step_inputs hin hstep) hC' (hP hin hC₀ hs hstep)]
    rfl

end

/-! ### Limits that no elapsed time exceeds (70 R272) -/

/-- No time exceeds `2 ^ 32 - 1`. -/
theorem not_max_lt (x : Time) : ¬0xFFFFFFFF#32 < x := by
  have := x.isLt
  rw [BitVec.lt_def, BitVec.toNat_ofNat]
  omega

/-- PS waits for a boot delay that never ends, with TX free. -/
def WaitsForEver (s : State) : Prop :=
  s.ps.psState = .bootWait ∧ s.cfg.bootDelay = 0xFFFFFFFF#32 ∧ s.tx.txBusy = false

theorem keptOn_waitsForEver : KeptOn (fun i => i.rst = false) WaitsForEver := by
  rintro s t inp rest hin hrst ⟨hp, hdelay, hfree⟩ h
  obtain ⟨hcfg, -, -⟩ := configurationNeverWritten s t h
  obtain ⟨u, v, hstep, hu, hv⟩ := step_transition hin hrst
  have hrule := hv.bootWaitResult (by rw [hu.ps]; exact hp) hu.txReq hu.psEvt
  have hnever : ¬(u.cfg.bootDelay < elapsed inp.nowMs u.ps.bootTime ∧ u.tx.txBusy = false) := by
    rw [hu.cfg, hdelay]
    exact fun ⟨hlt, _⟩ => not_max_lt _ hlt
  rw [if_neg hnever] at hrule
  obtain ⟨hp', -, hreq, -⟩ := hrule
  have hvfree : v.tx.txBusy = false := by
    obtain ⟨htx, -⟩ := hv.tx
    rw [htx, hu.tx]
    exact hfree
  rw [step_next_unique h hstep] at hcfg ⊢
  refine ⟨by rw [afterTx_ps]; exact hp', by rw [hcfg]; exact hdelay, ?_⟩
  rw [afterTx_of_no_request hreq, advance_of_free _ hvfree]
  exact hvfree

/-- Settles O33: by induction on the inputs, `WaitsForEver` being kept. -/
theorem longestBootDelayNeverEnds : Obligations.LongestBootDelayNeverEnds := by
  intro inps s hin hrst hp hdelay hfree
  have hin' : s.inputs = inps ++ [] := by rw [hin, List.append_nil]
  obtain ⟨t, hrun, -, hp', -⟩ := keptOn_waitsForEver.run hin' hrst ⟨hp, hdelay, hfree⟩
  have hsilent : SilentOn (fun i => i.rst = false) WaitsForEver := fun hin hrst ⟨_, _, hfree⟩ hstep =>
    step_silent hin hrst (.inl hfree) hstep
  exact ⟨t, hrun, hp', keptOn_waitsForEver.sentBytes_eq_nil hsilent hin' hrst ⟨hp, hdelay, hfree⟩⟩

/-- PS is in Active, with a timeout that never ends. -/
def ActiveForEver (s : State) : Prop := s.ps.psState = .active ∧ s.cfg.activityTimeout = 0xFFFFFFFF#32

theorem keptOn_activeForEver : KeptOn (fun i => i.rst = false) ActiveForEver := by
  rintro s t inp rest hin hrst ⟨hp, htimeout⟩ h
  obtain ⟨hcfg, -, -⟩ := configurationNeverWritten s t h
  obtain ⟨u, v, hstep, hu, hv⟩ := step_transition hin hrst
  have hrule := hv.activeResult (by rw [hu.ps]; exact hp) hu.txReq hu.psEvt
  rw [if_neg (by rw [hu.cfg, htimeout]; exact not_max_lt _)] at hrule
  have hp' : v.ps.psState = .active := by
    split at hrule <;> (obtain ⟨hp', -⟩ := hrule; exact hp')
  rw [step_next_unique h hstep] at hcfg ⊢
  exact ⟨by rw [afterTx_ps]; exact hp', by rw [hcfg]; exact htimeout⟩

/-- Settles O34: by induction on the inputs, `ActiveForEver` being kept. -/
theorem longestTimeoutNeverEnds : Obligations.LongestTimeoutNeverEnds := by
  intro inps s hin hrst hp htimeout
  have hin' : s.inputs = inps ++ [] := by rw [hin, List.append_nil]
  obtain ⟨t, hrun, -, hp', -⟩ := keptOn_activeForEver.run hin' hrst ⟨hp, htimeout⟩
  exact ⟨t, hrun, hp'⟩

/-! ### A command goes out whole (44 R215) -/

/-- An input without reset and without a handshake. -/
def Unready (i : Input) : Prop := i.rst = false ∧ i.txReady = false

/-- Without a handshake nothing is sent. -/
theorem sentBytes_of_unready {s : State} {inps rest : List Input} (hin : s.inputs = inps ++ rest)
    (hC : ∀ i ∈ inps, Unready i) : sentBytes inps.length s = [] :=
  KeptOn.sentBytes_eq_nil (P := fun _ => True) (fun _ _ _ _ => trivial)
    (fun hin ⟨hrst, hready⟩ _ hstep => step_silent hin hrst (.inr hready) hstep) hin hC trivial

section
variable {v : Variant} {k : Nat}

/-- TX holds the command `v` and has sent its first `k` bytes; with all eight sent it need not hold it any more. -/
def HasSent (v : Variant) (k : Nat) (s : State) : Prop :=
  k < 8 → s.tx = { txBusy := true, txSel := v, txIdx := BitVec.ofNat 3 k }

theorem txRegs_eq {r : TxRegs} {i : BitVec 3} (hbusy : r.txBusy = true) (hsel : r.txSel = v) (hidx : r.txIdx = i) :
    r = { txBusy := true, txSel := v, txIdx := i } := by
  cases r
  subst hbusy hsel hidx
  rfl

/-- A handshake sends the byte at the index, and a step without one sends nothing (44 R211, R212). -/
theorem HasSent.handshake {s : State} {inp : Input} {rest : List Input} (hs : HasSent v k s) (hk : k < 8)
    (hin : s.inputs = inp :: rest) (hrst : inp.rst = false) :
    ∃ t, step s = .next t ∧
      if inp.txReady = true then t.wires.txSent = some (cmdRom v (BitVec.ofNat 3 k)) ∧ HasSent v (k + 1) t
      else t.wires.txSent = none ∧ HasSent v k t := by
  have htx := hs hk
  obtain ⟨t, hstep, hsel, hrule⟩ := handshakeSendsOneByte s inp rest hin hrst (by rw [htx])
  refine ⟨t, hstep, ?_⟩
  rw [htx] at hsel hrule
  split at hrule
  · rename_i hready
    obtain ⟨hsent, hnext⟩ := hrule
    rw [if_pos hready]
    refine ⟨hsent, fun hk' => ?_⟩
    have h7 : BitVec.ofNat 3 k ≠ 7#3 := BitVec.toNat_ne.mpr (by rw [BitVec.toNat_ofNat, BitVec.toNat_ofNat]; omega)
    rw [if_neg h7] at hnext
    obtain ⟨hbusy, hidx⟩ := hnext
    exact txRegs_eq hbusy hsel (hidx.trans (BitVec.ofNat_add k 1).symm)
  · rename_i hready
    obtain ⟨hsent, hkeep⟩ := hrule
    rw [if_neg hready]
    exact ⟨hsent, fun _ => hkeep⟩

theorem readyCount_cons (inp : Input) (inps : List Input) :
    readyCount (inp :: inps) = readyCount inps + if inp.txReady = true then 1 else 0 :=
  List.countP_cons

/-- As many bytes go out as there are handshakes, from the index on. -/
theorem HasSent.sentBytes_eq (inps rest : List Input) {s : State} (hs : HasSent v k s) (hin : s.inputs = inps ++ rest)
    (hrst : NoReset inps) (hle : readyCount inps + k ≤ 8) :
    sentBytes inps.length s = ((cmdBytes v).drop k).take (readyCount inps) := by
  induction inps generalizing s k with
  | nil => rfl
  | cons inp inps ih =>
    by_cases hk : k < 8
    · obtain ⟨hrst₀, hrst'⟩ := List.forall_mem_cons.mp hrst
      obtain ⟨t, hstep, hrule⟩ := hs.handshake hk hin hrst₀
      have hin' := step_inputs hin hstep
      rw [List.length_cons, sentBytes_succ_of_step _ hstep]
      rw [readyCount_cons] at hle ⊢
      by_cases hready : inp.txReady = true
      · rw [if_pos hready] at hrule hle ⊢
        obtain ⟨hsent, ht⟩ := hrule
        have hlen : k < (cmdBytes v).length := by rw [length_cmdBytes]; exact hk
        rw [hsent, cmdRom_ofNat v hlen, ih ht hin' hrst' (by omega), List.drop_eq_getElem_cons hlen,
          List.take_succ_cons]
        rfl
      · rw [if_neg hready] at hrule hle ⊢
        obtain ⟨hsent, ht⟩ := hrule
        rw [hsent, ih ht hin' hrst' hle]
        rfl
    · have hnone : readyCount (inp :: inps) = 0 := by omega
      have hunready : ∀ i ∈ inp :: inps, Unready i := fun i hi =>
        ⟨hrst i hi, Bool.eq_false_iff.mpr (List.countP_eq_zero.mp hnone i hi)⟩
      rw [sentBytes_of_unready hin hunready, hnone, List.take_zero]

end

/-- Settles O38: a command that was just accepted has sent none of its bytes. -/
theorem commandGoesOutWhole : Obligations.CommandGoesOutWhole := by
  intro inps rest s v hin hrst htx hle
  have hs : HasSent v 0 s := fun _ => htx
  exact hs.sentBytes_eq inps rest hin hrst hle

end Sys2Proof.Machine

/-! PROOFS of the family `other`: reception is independent of the clock, the scheduler and the transmitter (10 sections
1 and 9). Two states that agree on what FR and HI read still agree after every instruction, and after PS and TX. -/

namespace Sys2Proof.Machine

open Sys2Proof.Safety

/-- The two states agree on everything that FR and HI read or write. -/
structure AgreeRx (s s' : State) : Prop where
  fr : s.fr = s'.fr
  hi : s.hi = s'.hi
  segTable : s.segTable = s'.segTable
  policy : s.cfg.activityPolicy = s'.cfg.activityPolicy
  frEvt : s.out.frEvt = s'.out.frEvt
  pkt : s.out.pkt = s'.out.pkt
  hiEvt : s.out.hiEvt = s'.out.hiEvt
  activity : s.out.activity = s'.out.activity
  pub : s.out.pub = s'.out.pub
  reading : s.wires.reading = s'.wires.reading

/-- The next states of two outcomes agree, where both have one. -/
def AgreeNext (o o' : Outcome) : Prop := ∀ t t', o = .next t → o' = .next t' → AgreeRx t t'

namespace AgreeRx

section
variable {s s' : State}

theorem next (h : AgreeRx s s') : AgreeNext (.next s) (.next s') := by
  rintro _ _ ⟨⟩ ⟨⟩
  exact h

/-! ### The operations of FR -/

theorem setFrEvt (h : AgreeRx s s') (e : FrEvt) : AgreeRx (setFrEvt e s) (setFrEvt e s') := { h with frEvt := rfl }

theorem setCursor (h : AgreeRx s s') (c : Cursor) : AgreeRx (setCursor c s) (setCursor c s') :=
  { h with fr := congrArg (fun r : FrRegs => { r with cursor := c }) h.fr }

theorem setBuf (h : AgreeRx s s') (a : Nat) (b : Byte) : AgreeRx (setBuf a b s) (setBuf a b s') :=
  { h with fr := congrArg (fun r : FrRegs => { r with buf := writeByte r.buf a b }) h.fr }

theorem appendByte (h : AgreeRx s s') (b : Byte) : AgreeRx (appendByte b s) (appendByte b s') := by
  unfold Machine.appendByte
  rw [h.fr]
  exact h.setBuf _ b

theorem frameError (h : AgreeRx s s') (e : FrEvt) : AgreeRx (frameError e s) (frameError e s') :=
  (h.setCursor 0#5).setFrEvt e

theorem startFrame (h : AgreeRx s s') (b : Byte) : AgreeRx (startFrame b s) (startFrame b s') :=
  ((h.setBuf 0 b).setCursor 1#5).setFrEvt .none

theorem accumulate (h : AgreeRx s s') (b : Byte) : AgreeRx (accumulate b s) (accumulate b s') := by
  unfold Machine.accumulate
  rw [h.fr]
  split
  · exact (h.appendByte b).frameError .overflow
  · exact ((h.appendByte b).setCursor _).setFrEvt .none

theorem deliver (h : AgreeRx s s') (p : Packet) : AgreeRx (deliver p s) (deliver p s') :=
  { h.setCursor 0#5 with frEvt := rfl, pkt := rfl }

theorem completeFrame (h : AgreeRx s s') : AgreeNext (completeFrame s) (completeFrame s') := by
  unfold Machine.completeFrame
  rw [h.fr]
  split
  · exact (h.frameError .badLength).next
  · split
    · exact (h.deliver _).next
    · rintro _ _ ⟨⟩

/-! ### The operations of HI, DG and TX -/

theorem setHiEvt (h : AgreeRx s s') (e : HiEvt) : AgreeRx (setHiEvt e s) (setHiEvt e s') := { h with hiEvt := rfl }

theorem withDigits (h : AgreeRx s s') (bh bt bo : Byte) : AgreeRx (withDigits bh bt bo s) (withDigits bh bt bo s') :=
  { h with }

theorem commitReading (h : AgreeRx s s') (v : Height) : AgreeRx (commitReading v s) (commitReading v s') :=
  { h with
    hi := congrArg (committedHi · v) h.hi
    hiEvt := rfl
    activity := congrArg₂ (fun p r => activityFlag p (changedFlag r v)) h.policy h.hi
    pub := congrArg (fun r => if publishFlag r v then some v else none) h.hi
    reading := congrArg (fun r => some (Reading.mk v (changedFlag r v))) h.hi }

theorem applyHeight (h : AgreeRx s s') (r : HeightResult) : AgreeRx (applyHeight r s) (applyHeight r s') := by
  cases r with
  | ignored e => exact h.setHiEvt e
  | reading v => exact h.commitReading v

theorem setPort (h : AgreeRx s s') (port : Port) (g : DgOut) : AgreeRx (setPort port g s) (setPort port g s') := by
  cases port <;> exact { h with }

theorem accept (h : AgreeRx s s') (v : Variant) : AgreeRx (accept v s) (accept v s') := { h with }

/-! ### Instructions and phases -/

/-- Every instruction keeps the agreement. -/
theorem exec (h : AgreeRx s s') (i : Instr) : AgreeNext (exec i s) (exec i s') := by
  cases i with
  | start9b | start98 => exact (h.startFrame _).next
  | noise => exact (h.setFrEvt _).next
  | data | len1 | lenOk | lenOverflow => exact (h.accumulate _).next
  | end9d => exact (h.appendByte _).completeFrame
  | badEnd | len0 => exact ((h.appendByte _).frameError _).next
  | msgHeartbeat | msgHeightBadlen | msgOther => exact (h.setHiEvt _).next
  | msgHeight bh bt bo r3 r4 =>
    simp only [Machine.exec, execMsgHeight_eq, h.segTable]
    exact ((h.withDigits bh bt bo).applyHeight _).next
  | cmdWake | cmdSilent => exact (h.accept _).next
  | digit0 | digit1 | digit2 | digit3 | digit4 | digit5 | digit6 | digit7 | digit8 | digit9 | digitMinus | digitBlank
  | digitInvalid => exact (h.setPort _ _).next

/-- FR on the same byte. -/
theorem frPhase (h : AgreeRx s s') {i i' : Input} (hv : i.rxValid = i'.rxValid) (hd : i.rxData = i'.rxData) :
    AgreeNext (frPhase i s) (frPhase i' s') := by
  unfold Machine.frPhase
  rw [hv, hd, h.fr]
  split
  · exact h.exec _
  · exact h.next

theorem hiPhase (h : AgreeRx s s') : AgreeNext (hiPhase s) (hiPhase s') := by
  unfold Machine.hiPhase
  rw [h.pkt]
  cases s'.out.pkt with
  | none => exact h.next
  | some p => exact h.exec (messageOf p)

/-- PS and TX write nothing of it, whatever their inputs. -/
theorem afterPsTx (h : AgreeRx s s') (i i' : Input) : AgreeRx (afterPsTx i s) (afterPsTx i' s') := by
  constructor <;>
    simp only [afterPsTx_fr, afterPsTx_hi, afterPsTx_segTable, afterPsTx_cfg, afterPsTx_frEvt, afterPsTx_pkt,
      afterPsTx_hiEvt, afterPsTx_activity, afterPsTx_pub, afterPsTx_reading, h.fr, h.hi, h.segTable, h.policy, h.frEvt,
      h.pkt, h.hiEvt, h.activity, h.pub, h.reading]

end

end AgreeRx

/-- Settles O50: the start of the step clears the events, and then each phase keeps the agreement. -/
theorem receptionIsIndependent : Obligations.ReceptionIsIndependent := by
  intro s s' i i' r r' hin hin' hrst hrst' hv hd hfr hhi hseg hpolicy
  have hbegin : AgreeRx (beginStep { s with inputs := r }) (beginStep { s' with inputs := r' }) :=
    ⟨hfr, hhi, hseg, hpolicy, rfl, rfl, rfl, rfl, rfl, rfl⟩
  obtain ⟨s1, s2, h1, -, -, -, h2, -, hstep⟩ := clockStep_phases i { s with inputs := r } hrst
  obtain ⟨s1', s2', h1', -, -, -, h2', -, hstep'⟩ := clockStep_phases i' { s' with inputs := r' } hrst'
  have hafterFr : AgreeRx s1 s1' := hbegin.frPhase hv hd s1 s1' h1 h1'
  have hafterHi : AgreeRx s2 s2' := hafterFr.hiPhase s2 s2' h2 h2'
  have hend : AgreeRx (afterPsTx i s2) (afterPsTx i' s2') := hafterHi.afterPsTx i i'
  exact ⟨_, _, (step_of_inputs hin).trans hstep, (step_of_inputs hin').trans hstep', hend.fr, hend.hi, hend.frEvt,
    hend.pkt, hend.hiEvt, hend.activity, hend.pub, hend.reading⟩

end Sys2Proof.Machine

/-! PROOFS of the family `other`: frames over a run (41 sections 2 and 3; 42 section 2). A frame that is not complete is
held in arrival order, by induction on the inputs; its last byte is then one step of the rules of FR. -/

namespace Sys2Proof.Machine

open Sys2Proof.Safety

/-! ### The bytes that FR holds -/

/-- The buffer `m` holds the bytes `bs` from address 0 on. -/
structure Held (bs : List Byte) (m : Memory) : Prop where
  wf : Memory.wf m
  reads : ∀ i, i < bs.length → readByte m i = bs.getD i 0#8

/-- FR has received the bytes `bs` of the frame that it accumulates. -/
def Accumulated (bs : List Byte) (s : State) : Prop := s.fr.cursor.toNat = bs.length ∧ Held bs s.fr.buf

/-- Bytes that leave a frame open: they fit the buffer below its last entry, they begin with a start byte, and they are
fewer than the length byte, once there is one, announces. -/
structure OpenFrame (bs : List Byte) : Prop where
  fits : bs.length ≤ 31
  start : 0 < bs.length → bs.getD 0 0#8 = 0x9B#8 ∨ bs.getD 0 0#8 = 0x98#8
  incomplete : 2 ≤ bs.length → bs.length < (bs.getD 1 0#8).toNat + 2

section
variable {bs cs : List Byte} {m : Memory} {b : Byte} {s t : State}

/-- What leaves a frame open is open after each of its bytes. -/
theorem OpenFrame.of_append (h : OpenFrame (bs ++ cs)) : OpenFrame bs := by
  obtain ⟨hfits, hstart, hinc⟩ := h
  rw [List.length_append] at hfits hstart hinc
  refine ⟨by omega, fun h0 => ?_, fun h2 => ?_⟩
  · rw [← List.getD_append bs cs 0#8 0 h0]
    exact hstart (by omega)
  · rw [← List.getD_append bs cs 0#8 1 h2]
    have := hinc (by omega)
    omega

/-- The next byte, written behind the bytes that are held, is held with them. -/
theorem Held.append (h : Held bs m) (b : Byte) (hcap : bs.length < Config.bufCap) :
    Held (bs ++ [b]) (writeByte m bs.length b) := by
  refine ⟨wf_writeByte b h.wf hcap, fun i hi => ?_⟩
  rw [List.length_append, List.length_singleton] at hi
  by_cases hlast : i = bs.length
  · subst hlast
    rw [readByte_writeByte_same bs.length b h.wf, List.getD_append_right _ _ _ _ le_rfl, Nat.sub_self]
    rfl
  · rw [readByte_writeByte_other b hlast, h.reads i (by omega), List.getD_append bs [b] 0#8 i (by omega)]

/-- The rules of FR accumulate a byte that leaves the frame open. -/
theorem frStep_of_open (h : Held bs m) (ho : OpenFrame (bs ++ [b])) :
    frStep bs.length m b = ⟨bs.length + 1, writeByte m bs.length b, .none, none⟩ := by
  obtain ⟨hfits, hstart, hinc⟩ := ho
  rw [List.length_append, List.length_singleton] at hfits hinc
  by_cases h0 : bs = []
  · subst h0
    exact frStep_start (hstart (by simp))
  · have hpos : 0 < bs.length := List.length_pos_iff.mpr h0
    have hlen := (h.append b (by simp only [Config.bufCap]; omega)).reads 1 (by simp; omega)
    have hlt := hinc (by omega)
    rw [← hlen] at hlt
    exact frStep_advance (by omega) (by omega) (by omega)

/-- A byte that leaves the frame open is accumulated. -/
theorem Accumulated.byte (hs : Accumulated bs s) (ho : OpenFrame (bs ++ [b]))
    (ht : frResult t = frStep s.fr.cursor.toNat s.fr.buf b) : Accumulated (bs ++ [b]) t := by
  obtain ⟨hcursor, hheld⟩ := hs
  have hfits := ho.fits
  rw [List.length_append, List.length_singleton] at hfits
  rw [hcursor, frStep_of_open hheld ho] at ht
  obtain ⟨hc, hb, -, -⟩ := FrResult.mk.inj ht
  refine ⟨by rw [hc, List.length_append, List.length_singleton], ?_⟩
  rw [hb]
  exact hheld.append b (by simp only [Config.bufCap]; omega)

end

/-! ### Steps and runs -/

section
variable {bs : List Byte} {s t u : State} {inp last : Input} {inps rest : List Input} {s1 s2 : State}

/-- A step with a byte leaves what the rules of FR say. -/
theorem StepPhases.frResult_byte (h : StepPhases inp rest s s1 s2) (hm : Memory.wf s.fr.buf)
    (hv : inp.rxValid = true) :
    frResult (afterPsTx inp s2) = frStep s.fr.cursor.toNat s.fr.buf inp.rxData := by
  obtain ⟨hfr, hevt, hpkt⟩ := h.fr
  have hrule := (h.byte hv).frStep_eq hm rfl
  rw [frResult, hfr, hevt, hpkt]
  exact hrule.symm

theorem received_of_byte (hv : inp.rxValid = true) : received (inp :: inps) = inp.rxData :: received inps := by
  simp [received, hv]

theorem received_of_noByte (hv : inp.rxValid = false) : received (inp :: inps) = received inps := by
  simp [received, hv]

/-- A run without reset accumulates the bytes of an open frame, whatever steps without a byte lie between them. -/
theorem Accumulated.run (hs : Accumulated bs s) (hin : s.inputs = inps ++ rest) (hrst : NoReset inps)
    (ho : OpenFrame (bs ++ received inps)) :
    ∃ t, Host.Core.run core inps.length s = .next t ∧ t.inputs = rest ∧ t.segTable = s.segTable ∧
      Accumulated (bs ++ received inps) t := by
  induction inps generalizing s bs with
  | nil => exact ⟨s, rfl, hin, rfl, by rw [show received [] = [] from rfl, List.append_nil]; exact hs⟩
  | cons inp inps ih =>
    obtain ⟨hrst₀, hrst'⟩ := List.forall_mem_cons.mp hrst
    obtain ⟨s1, s2, hstep, hph⟩ := step_phases hin hrst₀
    obtain ⟨-, hseg, hin'⟩ := hph.kept
    rw [List.length_cons, run_succ_of_step hstep, ← hseg]
    cases hv : inp.rxValid with
    | true =>
      rw [received_of_byte hv, List.append_cons] at ho ⊢
      exact ih (hs.byte ho.of_append (hph.frResult_byte hs.2.wf hv)) hin' hrst' ho
    | false =>
      rw [received_of_noByte hv] at ho ⊢
      have hfr : (afterPsTx inp s2).fr = s.fr := by
        obtain ⟨hfr, -⟩ := hph.fr
        rw [hfr, hph.noByte hv]
        rfl
      exact ih (by rw [Accumulated, hfr]; exact hs) hin' hrst' ho

/-- A run goes on with the step of the state that it reaches. -/
theorem run_succ_of_run {n : Nat} (hrun : Host.Core.run core n s = .next t) (hstep : step t = .next u) :
    Host.Core.run core (n + 1) s = .next u := by
  induction n generalizing s with
  | zero =>
    cases hrun
    exact run_succ_of_step hstep
  | succ n ih =>
    obtain ⟨s', hs'⟩ := stepNeverStops s
    rw [run_succ_of_step hs'] at hrun ⊢
    exact ih hrun

/-- From scanning, the step of the byte after an open frame: what FR does in it is one step of the rules on a buffer
that holds the frame, and HI acts on what FR leaves. -/
theorem run_last_byte (hin : s.inputs = inps ++ last :: rest) (hrst : NoReset inps) (hlast : last.rst = false)
    (h0 : s.fr.cursor = 0#5) (hm : Memory.wf s.fr.buf) (ho : OpenFrame (received inps)) (hv : last.rxValid = true) :
    ∃ m s1 s2, Host.Core.run core (inps.length + 1) s = .next (afterPsTx last s2) ∧ Held (received inps) m ∧
      frResult (afterPsTx last s2) = frStep (received inps).length m last.rxData ∧
      s1.out.pkt = (afterPsTx last s2).out.pkt ∧ s1.segTable = s.segTable ∧ HiOutcome s1 s2 := by
  have hs : Accumulated [] s := ⟨by rw [h0]; rfl, hm, fun i hi => absurd hi (Nat.not_lt_zero i)⟩
  obtain ⟨t, hrun, hin', hseg, hcursor, hheld⟩ := hs.run hin hrst ho
  rw [List.nil_append] at hcursor hheld
  obtain ⟨s1, s2, hstep, hph⟩ := step_phases hin' hlast
  obtain ⟨-, -, hpkt⟩ := hph.fr
  obtain ⟨-, -, -, -, hseg', -⟩ := hph.outsideFr
  have hrule := hph.frResult_byte hheld.wf hv
  rw [hcursor] at hrule
  exact ⟨t.fr.buf, s1, s2, run_succ_of_run hrun hstep, hheld, hrule, hpkt.symm, hseg'.trans hseg, hph.hi⟩

end

/-! ### Frames -/

section
variable {start len type : Byte} {body payload : List Byte} {m : Memory}

/-- A start byte, a length byte and fewer bytes than it announces leave a frame open. -/
theorem openFrame_of_body (hstart : start = 0x9B#8 ∨ start = 0x98#8) (hlen : body.length < len.toNat)
    (hcap : body.length + 2 < 32) : OpenFrame (start :: len :: body) :=
  ⟨by simp only [List.length_cons]; omega, fun _ => hstart, fun _ => Nat.add_lt_add_right hlen 2⟩

/-- Settles O55: by `Accumulated.run` from the empty frame. -/
theorem frameBytesAreHeld : Obligations.FrameBytesAreHeld := by
  intro inps rest s start len body hin hrst h0 hm hstart hr hlen hcap
  have hs : Accumulated [] s := ⟨by rw [h0]; rfl, hm, fun i hi => absurd hi (Nat.not_lt_zero i)⟩
  have ho : OpenFrame ([] ++ received inps) := by rw [hr]; exact openFrame_of_body hstart hlen hcap
  obtain ⟨t, hrun, hin', -, hcursor, hheld⟩ := hs.run hin hrst ho
  rw [hr] at hcursor hheld
  exact ⟨t, hrun, hcursor, hin', hheld.reads⟩

/-- The payload of a frame stands from address 3 on. -/
theorem Held.map_payload (h : Held (start :: len :: type :: payload) m) :
    (List.range payload.length).map (fun k => readByte m (3 + k)) = payload := by
  refine List.ext_getElem (by simp) fun k hk hk' => ?_
  have hread := h.reads (3 + k) (by simp only [List.length_cons]; omega)
  rw [Nat.add_comm 3 k] at hread
  rw [List.getElem_map, List.getElem_range, Nat.add_comm 3 k, hread]
  exact List.getD_eq_getElem _ _ hk'

/-- The end byte of a valid frame delivers the Packet of exactly its bytes (41 R124). -/
theorem frStep_end_of_held (h : Held (start :: len :: type :: payload) m) (hlen : payload.length + 2 = len.toNat) :
    frStep (start :: len :: type :: payload).length m 0x9D#8 =
      ⟨0, writeByte m (payload.length + 3) 0x9D#8, .packet,
        some { start, length := len, type, payload, endByte := 0x9D#8 }⟩ := by
  have h0 : readByte m 0 = start := h.reads 0 (by simp)
  have h1 : readByte m 1 = len := h.reads 1 (by simp)
  have h2 : readByte m 2 = type := h.reads 2 (by simp)
  have hlast : readByte (writeByte m (payload.length + 3) 0x9D#8) 1 = len :=
    (readByte_one_writeByte _ (by omega)).trans h1
  have hpacket := packetOf_writeByte_end (c := payload.length + 3) 0x9D#8 h.wf (by rw [h1]; omega) (by rw [h1]; omega)
  rw [h0, h1, h2, ← hlen, Nat.add_sub_cancel, h.map_payload] at hpacket
  simp only [List.length_cons]
  rw [frStep_packet (by omega) (by rw [hlast]; omega) (by rw [hlast]; omega), hpacket]

/-- From scanning, the step of the end byte of a valid frame: FR delivers its Packet, on which HI acts. -/
theorem run_whole_frame {inps rest : List Input} {last : Input} {s : State} (hin : s.inputs = inps ++ last :: rest)
    (hrst : NoReset inps) (hlast : last.rst = false) (h0 : s.fr.cursor = 0#5) (hm : Memory.wf s.fr.buf)
    (hstart : start = 0x9B#8 ∨ start = 0x98#8) (hr : received inps = start :: len :: type :: payload)
    (hlen : payload.length + 2 = len.toNat) (hcap : len.toNat ≤ 30) (hv : last.rxValid = true)
    (hd : last.rxData = 0x9D#8) :
    ∃ s1 s2, Host.Core.run core (inps.length + 1) s = .next (afterPsTx last s2) ∧
      (afterPsTx last s2).fr.cursor = 0#5 ∧ (afterPsTx last s2).out.frEvt = .packet ∧
      (afterPsTx last s2).out.pkt = some { start, length := len, type, payload, endByte := 0x9D#8 } ∧
      s1.out.pkt = (afterPsTx last s2).out.pkt ∧ s1.segTable = s.segTable ∧ HiOutcome s1 s2 := by
  have ho : OpenFrame (received inps) := by
    rw [hr]
    exact openFrame_of_body hstart (by simp only [List.length_cons]; omega) (by simp only [List.length_cons]; omega)
  obtain ⟨m, s1, s2, hrun, hheld, hrule, hpkt, hseg, hhi⟩ := run_last_byte hin hrst hlast h0 hm ho hv
  rw [hr] at hheld hrule
  rw [hd, frStep_end_of_held hheld hlen] at hrule
  obtain ⟨hcursor, -, hevt, hp⟩ := FrResult.mk.inj hrule
  exact ⟨s1, s2, hrun, BitVec.eq_of_toNat_eq hcursor, hevt, hp, hpkt, hseg, hhi⟩

end

/-- Settles O56: by `run_whole_frame`. -/
theorem wholeFrameGivesPacket : Obligations.WholeFrameGivesPacket := by
  intro inps rest last s start len type payload hin hrst hlast h0 hm hstart hr hlen hcap hv hd
  obtain ⟨s1, s2, hrun, hcursor, hevt, hp, -⟩ :=
    run_whole_frame hin hrst hlast h0 hm hstart hr hlen hcap hv hd
  exact ⟨_, hrun, hcursor, hevt, hp⟩

/-- Settles O57: the 32nd byte is stored in the last entry of the buffer, and the length byte announces more. -/
theorem longFrameOverflows : Obligations.LongFrameOverflows := by
  intro inps rest last s start len body hin hrst hlast h0 hm hstart hr hbody hlen hv
  have hlength : (received inps).length = 31 := by rw [hr, List.length_cons, List.length_cons, hbody]
  have ho : OpenFrame (received inps) := by rw [hr]; exact openFrame_of_body hstart (by omega) (by omega)
  obtain ⟨m, s1, s2, hrun, hheld, hrule, -⟩ := run_last_byte hin hrst hlast h0 hm ho hv
  have hread : readByte (writeByte m 31 last.rxData) 1 = len := by
    rw [readByte_one_writeByte _ (by omega), hheld.reads 1 (by omega), hr]
    rfl
  rw [hlength, frStep_overflow (by rw [hread]; omega)] at hrule
  obtain ⟨hcursor, -, hevt, hp⟩ := FrResult.mk.inj hrule
  exact ⟨_, hrun, BitVec.eq_of_toNat_eq hcursor, hevt, hp⟩

/-! ### The round trip of a height (95 L1-P3) -/

/-- HI on a height broadcast whose digits give a reading commits it. -/
theorem HiOutcome.of_reading {s t : State} {p : Packet} {h t' o r3 r4 : Byte} {v : Height} (hhi : HiOutcome s t)
    (hp : s.out.pkt = some p) (htype : p.type = 0x12#8) (hlen : p.length = 7#8) (hpay : p.payload = [h, t', o, r3, r4])
    (hj : judgeHeight (segRom s.segTable (patternOf h)) (segRom s.segTable (patternOf t'))
      (segRom s.segTable (patternOf o)) (hasDecimal t') = .reading v) :
    t = commitReading v (withDigits h t' o s) := by
  cases hhi with
  | idle hn => cases hn.symm.trans hp
  | code e q hq _ hne =>
    cases hq.symm.trans hp
    rcases hne with hne | hne | hne
    · exact absurd htype hne
    · exact absurd hlen hne
    · exact absurd (by rw [hpay]; rfl) hne
  | height q h2 t2 o2 r5 r6 hq _ _ hpay' =>
    cases hq.symm.trans hp
    cases hpay.symm.trans hpay'
    rw [hj]
    rfl

/-- Encoded digits that are not all 0 are judged a reading with the decimal flag of the tens byte. -/
theorem judgeHeight_digitBytes {t : SegTable} {x y z : Fin 10} (f f₁ f₂ : Bool) (hw : t.wf)
    (hne : ¬(x = 0 ∧ y = 0 ∧ z = 0)) :
    judgeHeight (segRom t (patternOf (digitByte f₁ (digitPattern t x))))
      (segRom t (patternOf (digitByte f (digitPattern t y)))) (segRom t (patternOf (digitByte f₂ (digitPattern t z))))
      (hasDecimal (digitByte f (digitPattern t y))) = .reading (readingValue (rawHeight x y z) f) := by
  have hdigit : ∀ (n : Fin 10) (d : Bool), segRom t (patternOf (digitByte d (digitPattern t n))) = .num n := by
    intro n d
    rw [patternOf_digitByte]
    exact segRom_of_patternFor (g := .num n) hw rfl
  rw [hasDecimal_digitByte]
  exact judgeHeight_num f (.inl (hdigit x f₁)) (hdigit y f) (hdigit z f₂) hne

/-- Settles O58: each digit byte reads back as its digit, so the Packet of the frame is a reading. -/
theorem digitsRoundTrip : Obligations.DigitsRoundTrip := by
  intro inps rest last s start r3 r4 x y z f f₁ f₂ hin hrst hlast h0 hm hw hstart hr hv hd hne
  obtain ⟨s1, s2, hrun, -, -, hp, hpkt, hseg, hhi⟩ :=
    run_whole_frame hin hrst hlast h0 hm hstart hr rfl (by decide) hv hd
  have hj := judgeHeight_digitBytes f f₁ f₂ hw hne
  rw [← hseg] at hj hp
  have hs2 := hhi.of_reading (hpkt.trans hp) rfl rfl rfl hj
  obtain ⟨hcur, hvalid⟩ := committedHi_curHeight (r := s1.hi) (v := readingValue (rawHeight x y z) f)
  refine ⟨_, _, hrun, readingValue_toNat x y z f, ?_, ?_, ?_, ?_⟩
  · rw [afterPsTx_hiEvt, hs2]; rfl
  · rw [afterPsTx_reading, hs2]; rfl
  · rw [afterPsTx_hi, hs2]; exact hcur
  · rw [afterPsTx_hi, hs2]; exact hvalid

end Sys2Proof.Machine
